-- ==== Sys2Proof/Word.lean ====
section
/-! DEFINITION. The word types of TRXC (spec/00_scope.md R13, R14): the host data path is 32 bits wide, the SPI data unit
and every buffer element is a byte, and a transceiver index has 6 bits. -/

namespace Sys2Proof

/-- One byte: the SPI data unit and the element of TXBUF and RXBUF (R13). -/
abbrev Byte := BitVec 8

/-- One host word: a register of the host window, and a command word (R13, R120). -/
abbrev Word := BitVec 32

/-- A transceiver register number, "index" in the spec's words (R20, R87). -/
abbrev Index := BitVec 6

end Sys2Proof
end

