-- ==== Sys2Proof/Config.lean ====
section
/-! DEFINITION. What an implementation of TRXC fixes (spec/00_scope.md R10 to R12), as a plain record that a machine state
carries, and the values the spec leaves open, as constants without a body. -/

namespace Sys2Proof

/-- One pair `(a_k, v_k)` of PROFILE (R12). The byte `a_k` is held as its two top bits and its 6-bit index, since R12 asks
that `a_k[7:6] = 0`. -/
structure ProfileEntry where
  /-- `a_k[7:6]`, 0 in every legal profile. -/
  top : BitVec 2
  /-- `a_k[5:0]`. -/
  index : Index
  /-- `v_k`. -/
  value : Byte
  deriving DecidableEq, Repr

/-- The byte `a_k` of a profile entry (R12). -/
def ProfileEntry.addr (e : ProfileEntry) : Byte := e.top ++ e.index

/-- The parameters of R10, R11 and R12: elaboration-time constants that no command and no host access writes (R57) and that
reset does not change (R304). The machine state carries them, so that a statement about every state is one about every
value of every parameter. -/
structure Params where
  /-- DUMMY_BYTE, the MOSI byte of a read's data phase (R11, R129). -/
  dummyByte : Byte
  /-- WAIT_SO_LOW: each transaction waits for MISO low after chip-select assertion (R11, R97). -/
  waitSoLow : Bool
  /-- RSSI_ADDR, the status register READ_RSSI reads (R11, R250). -/
  rssiAddr : Index
  /-- HAS_AUX: the auxiliary line is connected (R11, R41). -/
  hasAux : Bool
  /-- PROFILE, an ordered list of exactly 30 pairs (R12). -/
  profile : List ProfileEntry
  /-- PATABLE, a list of exactly 8 bytes (R12). -/
  patable : List Byte
  /-- CLK_HZ (R10) as a whole number of Hz, 0 among them. R10 says only that it is the clock frequency, OPEN: DESIGN CHOICE,
  safe (log entry 31). It sets DCNT's load and nothing else. -/
  clkHz : Nat
  /-- SCLK_DIV less 1, so that SCLK_DIV is at least 1 (R10). No rule of the semantics reads it. -/
  sclkDivPred : Nat
  /-- What SETTLE_DELAY has beyond its least value of 10 ms (R10), in microseconds (DESIGN CHOICE, log entry 6). -/
  settleExtraUs : Nat
  /-- TX_DELAY in microseconds (R10; DESIGN CHOICE, log entry 6). It sets DCNT's load and nothing else. -/
  txDelayUs : Nat
  /-- T_CSH (R10) as a whole number of clocks. R10 gives it no unit and no granularity: DESIGN CHOICE, safe (log entry 32). No rule
  of the semantics reads it. -/
  tCsh : Nat
  /-- TRXC_BASE (R11, R287) as an address of any size (DESIGN CHOICE, log entry 5). No rule reads it: rules use offsets within the
  window. -/
  trxcBase : Nat
  deriving DecidableEq, Repr

/-- SCLK_DIV, an integer of at least 1 (R10). -/
def Params.sclkDiv (p : Params) : Nat := p.sclkDivPred + 1

/-- SETTLE_DELAY in microseconds, at least 10 ms (R10). It sets DCNT's load and nothing else. -/
def Params.settleDelayUs (p : Params) : Nat := 10000 + p.settleExtraUs

/-- `PROFILE_LEN = 30` (R9). -/
def profileLen : Nat := 30

/-- `PATABLE_LEN = 8` (R9). -/
def patableLen : Nat := 8

/-- PROFILE meets R12: exactly 30 entries, each with `a_k[7:6] = 0`. -/
def Params.profileLegal (p : Params) : Bool := p.profile.length == profileLen && p.profile.all (fun e => e.top == 0)

/-- PATABLE meets R12: exactly 8 bytes. -/
def Params.patableLegal (p : Params) : Bool := p.patable.length == patableLen

/-! The open parameters (R10 to R12 mark them OPEN): nothing is known of their values. -/

/-- The index `a_k[5:0]` of PROFILE's entry `k` (R12, OPEN). -/
opaque Config.profileIndex : Nat → Index
/-- The value `v_k` of PROFILE's entry `k` (R12, OPEN). -/
opaque Config.profileValue : Nat → Byte
/-- The byte `k` of PATABLE (R12, OPEN). -/
opaque Config.patableByte : Nat → Byte
/-- CLK_HZ (R10, OPEN). -/
opaque Config.clkHz : Nat
/-- SCLK_DIV less 1 (R10, OPEN; SCLK_DIV is an integer of at least 1). -/
opaque Config.sclkDivPred : Nat
/-- TRXC_BASE (R11, OPEN). -/
opaque Config.trxcBase : Nat

/-- The parameters with every default the spec gives (R10, R11) and every OPEN one left open. -/
def Params.default : Params :=
  { dummyByte := 0x00
    waitSoLow := false
    rssiAddr := 0x34
    hasAux := false
    profile :=
      (List.range profileLen).map (fun k => { top := 0, index := Config.profileIndex k, value := Config.profileValue k })
    patable := (List.range patableLen).map Config.patableByte
    clkHz := Config.clkHz
    sclkDivPred := Config.sclkDivPred
    settleExtraUs := 0
    txDelayUs := 100000
    tCsh := 2 * (Config.sclkDivPred + 1)
    trxcBase := Config.trxcBase }

/-! The free values: what the transceiver drives and what unwritten RAM holds is open to the spec. Each is a constant without
a body, applied to the count of draws already made, so that no two draws are known to agree. -/

/-- The byte the transceiver answers on MISO in the k-th byte exchange (R94). -/
opaque Config.misoByte : Nat → Byte
/-- The MISO level (true = 1) at the k-th sample of the MISO-low wait (R97). -/
opaque Config.misoLevel : Nat → Bool
/-- The levels of the inputs GDO0 and GDO2 at the k-th clock edge (R40, R41). -/
opaque Config.lineLevels : Nat → Bool × Bool
/-- What an unwritten buffer byte reads as at the k-th draw (R312). -/
opaque Config.ramByte : Nat → Byte
/-- Whether the k-th racing read of an RXBUF byte sees the value from before READ_PKT (R108). -/
opaque Config.raceOld : Nat → Bool

end Sys2Proof
end

