-- ==== Sys2Proof/Syntax.lean ====
section
/-! DEFINITION. The eleven commands of TRXC (spec/30_encoding.md R121), one constructor per row of spec/opcode_table.json,
their operation names, and the rejection codes a command word can meet (spec/60_exceptions.md R271). -/

namespace Sys2Proof

/-- A command with its operands (R121, R124). The operands have the widths of the fields the command uses: an index is
`A[5:0]`, a strobe opcode the whole of `A`, a count the 7 bits of `N`, a value, capacity or raw byte the 8 bits of `D`. -/
inductive Instr where
  /-- STROBE, R150: `S = A`. -/
  | strobe (opcode : Byte)
  /-- READ_REG, R155: `a = A[5:0]`. -/
  | readReg (index : Index)
  /-- READ_STATUS, R160: `a = A[5:0]`. -/
  | readStatus (index : Index)
  /-- WRITE_REG, R165: `a = A[5:0]`, `v = D`. -/
  | writeReg (index : Index) (value : Byte)
  /-- WRITE_BURST, R170: `a = A[5:0]`, `n = N`. -/
  | writeBurst (index : Index) (count : BitVec 7)
  /-- CONFIGURE, R190. -/
  | configure
  /-- RX, R196. -/
  | rx
  /-- TX, R200: `n = N`. -/
  | tx (length : BitVec 7)
  /-- READ_PKT, R220: `C = D`. -/
  | readPkt (capacity : Byte)
  /-- READ_RSSI, R250. -/
  | readRssi
  /-- DECODE_RSSI, R253: `r = D`. -/
  | decodeRssi (raw : Byte)
  deriving DecidableEq, Repr

/-- The operation a command names, without its operands: what `SEQ = Run(op, pos)` records (R51). -/
inductive Operation where
  | strobe | readReg | readStatus | writeReg | writeBurst | configure | rx | tx | readPkt | readRssi | decodeRssi
  deriving DecidableEq, Repr

/-- The value of STATUS.ERRCODE (R271). Codes 6 and 7 are reserved and never written (U13), so they are no constructors. -/
inductive Code where
  /-- 0: no rejection since ERR was cleared or since reset. -/
  | none
  /-- 1: a CMD write or a TXBUF write while BUSY = 1 (R273, R274). -/
  | busyCollision
  /-- 2: OP is 0x0, 0x6, 0x7, 0xE or 0xF. -/
  | illegalOp
  /-- 3: a field that must be zero is not (R122). -/
  | reservedField
  /-- 4: STROBE with A outside StrobeSet (R130). -/
  | illegalStrobe
  /-- 5: WRITE_BURST with N > 64; TX with N = 0 or N > 64. -/
  | badLength
  deriving DecidableEq, Repr

end Sys2Proof
end

