-- ==== Sys2Proof/WellFormed.lean ====
section
/-! DEFINITION. Which commands are well formed: the extra conditions of spec/30_encoding.md R122 (a strobe opcode in StrobeSet,
a burst of at most 64 bytes, a packet of 1 to 64 bytes). The other conditions of R122 are the operands' widths. -/

namespace Sys2Proof

/-- `MAX_PKT = 64`, the largest packet payload (R9). -/
def maxPkt : Nat := 64

/-- `StrobeSet`, exactly ten opcodes (R130). -/
def strobeSet : List Byte := [0x30, 0x31, 0x32, 0x33, 0x34, 0x35, 0x36, 0x3A, 0x3B, 0x3D]

/-- The command satisfies the extra condition of its row in the table of R122. -/
def Instr.wf : Instr → Bool
  | .strobe opcode => strobeSet.contains opcode
  | .readReg _ => true
  | .readStatus _ => true
  | .writeReg _ _ => true
  | .writeBurst _ count => decide (count.toNat ≤ maxPkt)
  | .configure => true
  | .rx => true
  | .tx length => decide (1 ≤ length.toNat ∧ length.toNat ≤ maxPkt)
  | .readPkt _ => true
  | .readRssi => true
  | .decodeRssi _ => true

end Sys2Proof
end

