-- ==== Sys2Proof/Decode.lean ====
section
/-! DEFINITION. The command word (spec/30_encoding.md R120 to R124, R131 to R133): its fields, the match and mask of each
command, the total decoder that rejects by code, and after it the encoder and the assembler's lines (R134, R135). -/

namespace Sys2Proof

/-- The fields of a command word (R120). Bits [7:4] and bit 31 are reserved and stand in no field. It is also the form in
which an accepted command is captured into CUR (R52). -/
structure Fields where
  /-- OP, bits 3:0. -/
  op : BitVec 4
  /-- A, bits 15:8. -/
  a : Byte
  /-- D, bits 23:16. -/
  d : Byte
  /-- N, bits 30:24. -/
  n : BitVec 7
  deriving DecidableEq, Repr

/-- The fields of the word `w` (R120). -/
def fieldsOf (w : Word) : Fields :=
  { op := w.extractLsb' 0 4, a := w.extractLsb' 8 8, d := w.extractLsb' 16 8, n := w.extractLsb' 24 7 }

/-- One row of the match and mask table of R122, for the command whose OP value is `op`. -/
structure Row where
  op : BitVec 4
  mask : Word
  value : Word
  deriving DecidableEq, Repr

/-- The table of R122. -/
def rows : List Row :=
  [ { op := 0x1, mask := 0xFFFF00FF, value := 0x00000001 },
    { op := 0x2, mask := 0xFFFFC0FF, value := 0x00000002 },
    { op := 0x3, mask := 0xFFFFC0FF, value := 0x00000003 },
    { op := 0x4, mask := 0xFF00C0FF, value := 0x00000004 },
    { op := 0x5, mask := 0x80FFC0FF, value := 0x00000005 },
    { op := 0x8, mask := 0xFFFFFFFF, value := 0x00000008 },
    { op := 0x9, mask := 0xFFFFFFFF, value := 0x00000009 },
    { op := 0xA, mask := 0x80FFFFFF, value := 0x0000000A },
    { op := 0xB, mask := 0xFF00FFFF, value := 0x0000000B },
    { op := 0xC, mask := 0xFFFFFFFF, value := 0x0000000C },
    { op := 0xD, mask := 0xFF00FFFF, value := 0x0000000D } ]

/-- The row of an OP value; `none` for the illegal values 0x0, 0x6, 0x7, 0xE and 0xF (R121). -/
def rowOf (op : BitVec 4) : Option Row := rows.find? (fun r => r.op == op)

/-- The command a word's fields name, its operands formed as R124 says; `none` for an illegal OP. -/
def instrOf (f : Fields) : Option Instr :=
  match f.op with
  | 0x1#4 => some (.strobe f.a)
  | 0x2#4 => some (.readReg (f.a.extractLsb' 0 6))
  | 0x3#4 => some (.readStatus (f.a.extractLsb' 0 6))
  | 0x4#4 => some (.writeReg (f.a.extractLsb' 0 6) f.d)
  | 0x5#4 => some (.writeBurst (f.a.extractLsb' 0 6) f.n)
  | 0x8#4 => some .configure
  | 0x9#4 => some .rx
  | 0xA#4 => some (.tx f.n)
  | 0xB#4 => some (.readPkt f.d)
  | 0xC#4 => some .readRssi
  | 0xD#4 => some (.decodeRssi f.d)
  | _ => none

/-- The operand checks that close Decode (R123): ILLEGAL_STROBE for a strobe opcode outside StrobeSet, BAD_LENGTH for
WRITE_BURST with N > 64 and for TX with N = 0 or N > 64. -/
def operandCheck : Instr → Option Code
  | .strobe opcode => if strobeSet.contains opcode then none else some .illegalStrobe
  | .writeBurst _ count => if count.toNat > 64 then some .badLength else none
  | .tx length => if length.toNat = 0 ∨ length.toNat > 64 then some .badLength else none
  | .readReg _ => none
  | .readStatus _ => none
  | .writeReg _ _ => none
  | .configure => none
  | .rx => none
  | .readPkt _ => none
  | .readRssi => none
  | .decodeRssi _ => none

/-- What Decode answers: a command, or the code of its rejection (R123). -/
inductive Decoded where
  | cmd (i : Instr)
  | reject (c : Code)
  deriving DecidableEq, Repr

/-- `Decode(w)` of R123, with its fixed order of checks: ILLEGAL_OP, RESERVED_FIELD, then the operand checks. -/
def decode (w : Word) : Decoded :=
  match rowOf (fieldsOf w).op with
  | none => .reject .illegalOp
  | some r =>
    if w &&& r.mask ≠ r.value then .reject .reservedField
    else
      match instrOf (fieldsOf w) with
      | none => .reject .illegalOp
      | some i =>
        match operandCheck i with
        | some c => .reject c
        | none => .cmd i

/-- The instruction an instruction word of spec/opcode_table.json's numbering holds: `nbits` bits of `w`, all bits above
them zero. A command is one 32-bit word with bit 0 its least significant bit (R120, R133). -/
def decodeTableWord (nbits w : Nat) : Option Instr :=
  match decode (BitVec.ofNat 32 (w % 2 ^ nbits)) with
  | .cmd i => some i
  | .reject _ => none

/-! The encoder, written from the same tables (R120 to R122, R134). -/

/-- The operation of a command (R121). -/
def Instr.operation : Instr → Operation
  | .strobe _ => .strobe
  | .readReg _ => .readReg
  | .readStatus _ => .readStatus
  | .writeReg _ _ => .writeReg
  | .writeBurst _ _ => .writeBurst
  | .configure => .configure
  | .rx => .rx
  | .tx _ => .tx
  | .readPkt _ => .readPkt
  | .readRssi => .readRssi
  | .decodeRssi _ => .decodeRssi

/-- The fields of a command, every field it does not use being zero (R122). -/
def Instr.fields : Instr → Fields
  | .strobe opcode => { op := 0x1, a := opcode, d := 0, n := 0 }
  | .readReg index => { op := 0x2, a := index.setWidth 8, d := 0, n := 0 }
  | .readStatus index => { op := 0x3, a := index.setWidth 8, d := 0, n := 0 }
  | .writeReg index value => { op := 0x4, a := index.setWidth 8, d := value, n := 0 }
  | .writeBurst index count => { op := 0x5, a := index.setWidth 8, d := 0, n := count }
  | .configure => { op := 0x8, a := 0, d := 0, n := 0 }
  | .rx => { op := 0x9, a := 0, d := 0, n := 0 }
  | .tx length => { op := 0xA, a := 0, d := 0, n := length }
  | .readPkt capacity => { op := 0xB, a := 0, d := capacity, n := 0 }
  | .readRssi => { op := 0xC, a := 0, d := 0, n := 0 }
  | .decodeRssi raw => { op := 0xD, a := 0, d := raw, n := 0 }

/-- The word with the given fields, its reserved bits zero (R120). -/
def Fields.word (f : Fields) : Word := 0#1 ++ f.n ++ f.d ++ f.a ++ 0#4 ++ f.op

/-- `enc(X)`: the command word of a command (R134). -/
def encode (i : Instr) : Word := i.fields.word

/-! The assembler's lines (R134) and the named strobes (R135), operands as the numbers written. -/

/-- A named strobe, a pseudo-instruction of R135. -/
inductive NamedStrobe where
  | reset | txFromIdle | pwrDown | cal | rx | tx | idle | flushRx | flushTx | nop
  deriving DecidableEq, Repr

/-- The opcode a named strobe expands to (R135, R130). -/
def NamedStrobe.opcode : NamedStrobe → Byte
  | .reset => 0x30
  | .txFromIdle => 0x31
  | .pwrDown => 0x32
  | .cal => 0x33
  | .rx => 0x34
  | .tx => 0x35
  | .idle => 0x36
  | .flushRx => 0x3A
  | .flushTx => 0x3B
  | .nop => 0x3D

/-- One command line of the assembler (R134, R135). -/
inductive AsmLine where
  | strobe (s : Nat)
  | rdreg (a : Nat)
  | rdstat (a : Nat)
  | wrreg (a d : Nat)
  | wrburst (a n : Nat)
  | configure
  | rx
  | tx (n : Nat)
  | rdpkt (c : Nat)
  | rdrssi
  | decrssi (r : Nat)
  | named (p : NamedStrobe)
  deriving DecidableEq, Repr

/-- The word a line assembles to; `none` is the assembly error of an operand out of range, for which no word is emitted
(R134). -/
def assemble : AsmLine → Option Word
  | .strobe s => if s ≤ 0xFF then some (0x00000001 ||| BitVec.ofNat 32 s <<< 8) else none
  | .rdreg a => if a ≤ 0x3F then some (0x00000002 ||| BitVec.ofNat 32 a <<< 8) else none
  | .rdstat a => if a ≤ 0x3F then some (0x00000003 ||| BitVec.ofNat 32 a <<< 8) else none
  | .wrreg a d =>
    if a ≤ 0x3F ∧ d ≤ 0xFF then some (0x00000004 ||| BitVec.ofNat 32 a <<< 8 ||| BitVec.ofNat 32 d <<< 16) else none
  | .wrburst a n =>
    if a ≤ 0x3F ∧ n ≤ 64 then some (0x00000005 ||| BitVec.ofNat 32 a <<< 8 ||| BitVec.ofNat 32 n <<< 24) else none
  | .configure => some 0x00000008
  | .rx => some 0x00000009
  | .tx n => if 1 ≤ n ∧ n ≤ 64 then some (0x0000000A ||| BitVec.ofNat 32 n <<< 24) else none
  | .rdpkt c => if c ≤ 255 then some (0x0000000B ||| BitVec.ofNat 32 c <<< 16) else none
  | .rdrssi => some 0x0000000C
  | .decrssi r => if r ≤ 255 then some (0x0000000D ||| BitVec.ofNat 32 r <<< 16) else none
  | .named p => some (0x00000001 ||| p.opcode.setWidth 32 <<< 8)

end Sys2Proof
end

