-- ==== Sys2Proof/Machine/State.lean ====
section
/-! DEFINITION. The state of TRXC as plain data (spec/10_state.md), with the state after reset, and the reasons a step can
stop with. -/

namespace Sys2Proof.Machine

/-! ## Why a step can stop -/

/-- The faults of the model (R278). A faulted state is never a good final state. -/
inductive Fault where
  /-- Raised by the host port on an access that is not an aligned whole word (R81, R277). Hardware answers `h_err = 1` and
  changes nothing. Safe: the model stops where the hardware goes on. -/
  | illegalHostAccess
  /-- Raised by WRITE_BURST and TX, before their first transaction, when a byte they would send is unwritten (R312). Hardware
  sends whatever its RAM holds. Safe: the model stops where the hardware goes on. -/
  | unwrittenTxByte
  deriving DecidableEq, Repr

/-- The refusals of the model (R278): what the spec leaves without meaning. -/
inductive Refusal where
  /-- Raised by no arm of `exec`: every command has its meaning. Safe. -/
  | notModelled (mnemonic : String)
  /-- Raised by CONFIGURE when PROFILE breaks R12 (U15). Safe: such a machine is outside the spec's domain. -/
  | profileOutsideDomain
  /-- Raised by CONFIGURE when PATABLE does not have its 8 bytes (R12). Safe: such a machine is outside the spec's domain. -/
  | patableOutsideDomain
  /-- Raised by every host access while RST_N = 0: the spec gives it no move (R327, H1). Safe. -/
  | hostAccessDuringReset
  deriving DecidableEq, Repr

/-! ## What stands outside TRXC -/

/-- A stream of values the transceiver (or unwritten RAM) supplies: the values queued in the state come first, and after them
a free value per draw. `drawn` counts the draws made so far. Both are the model's own fields. -/
structure Feed (α : Type) where
  queue : List α
  drawn : Nat
  deriving DecidableEq, Repr

/-- A move of the agents outside or inside TRXC, in the order of the agenda (R103, R104). The agenda is the model's own: it
fixes one interleaving of host and sequencer, and every interleaving is some agenda. -/
inductive Move where
  /-- The host reads the register at a byte offset (R85). -/
  | read (off : BitVec 8)
  /-- The host writes the register at a byte offset, with byte strobes (R86). -/
  | write (off : BitVec 8) (data : Word) (strb : BitVec 4)
  /-- A command line of a host program: the word is issued, and the host waits for BUSY = 0 (R135). -/
  | command (w : Word)
  /-- The host polls STATUS until BUSY = 0 (R135). -/
  | waitIdle
  /-- The sequencer takes one step (R104). -/
  | sequencer
  /-- A clock edge in which neither host nor sequencer does anything. -/
  | clock
  /-- RST_N is driven to 0 (R300). If the sequencer stands at a byte exchange, `seen` of the 24 moments of its wave have passed by
  then, so that 1 to 23 cut the byte short (R301); 0, or no exchange, is between two steps. -/
  | resetLow (seen : Fin 24)
  /-- RST_N is driven to 1 (R300). -/
  | resetHigh
  deriving DecidableEq, Repr

/-- The two fixed delays (R285). -/
inductive DelayName where
  | settle
  | tx
  deriving DecidableEq, Repr

/-- What an observer of the SPI pins and of the delays sees, in order (R104). -/
inductive BusEvent where
  /-- CS_N goes to 0. -/
  | csFall
  /-- One byte exchange: the MOSI byte sent and the MISO byte received (R94). -/
  | xfer (mosi miso : Byte)
  /-- CS_N goes to 1. -/
  | csRise
  /-- A byte exchange that reset cuts short after the first `seen` moments of its wave (R301). -/
  | xferCut (seen : Fin 24) (mosi miso : Byte)
  /-- RST_N goes to 0: CS_N goes to 1, SCLK and MOSI go to 0, wherever they were (R301). -/
  | resetFall
  /-- A delay begins. -/
  | delayStart (d : DelayName)
  /-- A delay ends. -/
  | delayEnd (d : DelayName)
  deriving DecidableEq, Repr

/-! ## Registers and buffers -/

/-- STATUS.LIFECYCLE (R38). No event sets `failed` (R193). -/
inductive Lifecycle where
  | uninitialized
  | configuring
  | ready
  | failed
  deriving DecidableEq, Repr

/-- RXINFO.RX_OUTCOME (R45). -/
inductive RxOutcome where
  | none
  | malformed
  | crcFail
  | delivered
  deriving DecidableEq, Repr

/-- A two-stage input synchroniser: `ff1` samples the input, `ff2` is the level STATUS shows (R54). -/
structure Sync where
  ff1 : Bool
  ff2 : Bool
  deriving DecidableEq, Repr

/-- The two payload buffers as (address, byte) cells keyed by byte offset in the host window: TXBUF[i] at 0x40 + i (R48),
RXBUF[i] at 0x80 + i (R49). A byte is listed exactly when it has been written, so that the cells are the contents and the
written flags TXW and RXW of R56 in one. -/
abbrev Memory := List Host.Cell

/-! ## The sequencer -/

/-- The result fields a command's `Complete()` writes (R42). -/
inductive Completion where
  /-- No result field: STROBE, WRITE_REG, WRITE_BURST, RX, TX. -/
  | plain
  /-- RDATA from the last byte received: READ_REG, READ_STATUS. -/
  | rdata
  /-- LIFECYCLE and CONFIG_OK: CONFIGURE. -/
  | configured
  /-- RXINFO of a malformed length: READ_PKT. -/
  | malformed
  /-- RXINFO by the CRC-OK bit of the LQI byte: READ_PKT. -/
  | packet
  /-- RSSI_RAW from the last byte received: READ_RSSI. -/
  | rssiReceived
  /-- RSSI_RAW from CUR.D: DECODE_RSSI. -/
  | rssiOperand
  deriving DecidableEq, Repr

/-- One step of a command's expansion (R51, R104). -/
inductive MicroOp where
  /-- Before WRITE_BURST's and TX's first transaction: the bytes TXBUF[0..n-1] must be written (R312). -/
  | needTx (n : Nat)
  /-- Before CONFIGURE's first transaction: PROFILE and PATABLE must meet R12 (R278). -/
  | needTables
  /-- CS_N <- 0 (R95). -/
  | csLow
  /-- The MISO-low wait (R97). -/
  | waitSo
  /-- `Xfer` of a given byte (R94). -/
  | xfer (m : Byte)
  /-- `Xfer` of TXBUF[i], read in this step (R107). -/
  | xferTx (i : Nat)
  /-- CS_N <- 1 (R95). -/
  | csHigh
  /-- A delay begins: DCNT is loaded (R285). -/
  | delayStart (d : DelayName)
  /-- A delay ends: DCNT reaches 0 (R285). -/
  | delayEnd (d : DelayName)
  /-- READ_PKT steps 2 and 3: the declared length decides the rest (R220). -/
  | pktLength
  /-- READ_PKT: RXBUF[i] <- the last byte received (R225). -/
  | rxStore
  /-- READ_PKT: q <- the last byte received (R227). -/
  | latchLqi
  /-- `Complete()` (R42). -/
  | complete (c : Completion)
  deriving DecidableEq, Repr

/-- The working values inside a running command (R51, R222). -/
structure Work where
  /-- The MISO byte of the last exchange. -/
  last : Byte
  /-- READ_PKT's declared length L. -/
  len : Byte
  /-- READ_PKT's copy count k. -/
  k : Nat
  /-- READ_PKT's index i of the next RXBUF byte. -/
  i : Nat
  /-- READ_PKT's LQI byte q. -/
  lqi : Byte
  /-- The buffers as they stood at acceptance: what a racing read of RXBUF may still see (R108). The model's own field. -/
  old : Memory
  deriving DecidableEq, Repr

/-- The sequencer state SEQ (R51); the position is the list of the steps that remain. -/
inductive Seq where
  | idle
  | run (op : Operation) (pos : List MicroOp) (work : Work)
  deriving DecidableEq, Repr

/-! ## The state -/

/-- The state of TRXC, and beside it the model's own fields for what stands outside it. -/
structure State where
  /-- The parameters of R10 to R12, constant. -/
  params : Params
  /-- The moves still to come; when none is left the sequencer runs by itself. The model's own. -/
  agenda : List Move
  /-- The bytes the transceiver answers (R94). The model's own. -/
  miso : Feed Byte
  /-- The MISO levels the MISO-low wait samples (R97). The model's own. -/
  soLevel : Feed Bool
  /-- The levels of (GDO0, GDO2) at the clock edges (R40, R41). The model's own. -/
  lines : Feed (Bool × Bool)
  /-- What unwritten buffer bytes read as (R312). The model's own. -/
  ram : Feed Byte
  /-- Whether a racing RXBUF byte is read as its old value (R108). The model's own. -/
  race : Feed Bool
  /-- The reset input RST_N (R300). -/
  rstN : Bool
  /-- The output CS_N, active low (R53). -/
  csN : Bool
  /-- The output SCLK (R53). -/
  sclk : Bool
  /-- The output MOSI (R53). -/
  mosi : Bool
  /-- STATUS.BUSY (R35). -/
  busy : Bool
  /-- STATUS.DONE (R36). -/
  done : Bool
  /-- STATUS.ERR (R37). -/
  err : Bool
  /-- STATUS.ERRCODE (R37, R271). -/
  errCode : Code
  /-- STATUS.LIFECYCLE (R38). -/
  lifecycle : Lifecycle
  /-- STATUS.CONFIG_OK (R39). -/
  configOk : Bool
  /-- The synchroniser of GDO0, whose level is STATUS.READY_LINE (R40, R54). -/
  gdo0 : Sync
  /-- The synchroniser of GDO2, whose level is STATUS.AUX_LINE when HAS_AUX (R41, R54). -/
  gdo2 : Sync
  /-- RDATA[7:0] (R44). -/
  rdata : Byte
  /-- RXINFO.RXCOUNT (R45). -/
  rxCount : BitVec 7
  /-- RXINFO.RX_OUTCOME (R45). -/
  rxOutcome : RxOutcome
  /-- RSSI_RAW[7:0] (R46). -/
  rssiRaw : Byte
  /-- TXBUF and RXBUF with their written flags (R48, R49, R56). -/
  mem : Memory
  /-- The sequencer state SEQ (R51). -/
  seq : Seq
  /-- The captured command CUR (R52). -/
  cur : Fields
  /-- The delay counter DCNT (R55). -/
  dcnt : Nat
  /-- The host port's output h_rdata, as the last legal read left it (R80). -/
  hRdata : Word
  /-- The host port's output h_err of the last access that answered (R80, R82). -/
  hErr : Bool
  /-- Everything seen on the SPI pins and of the delays so far, oldest first. The model's own. -/
  trace : List BusEvent
  deriving DecidableEq, Repr

/-- The machine right after reset (R59, R302): Idle, Uninitialized, no buffer byte written, with RST_N released, the
parameters at the spec's defaults, and nothing to do until the host moves. -/
def State.reset : State :=
  { params := Params.default
    agenda := []
    miso := { queue := [], drawn := 0 }
    soLevel := { queue := [], drawn := 0 }
    lines := { queue := [], drawn := 0 }
    ram := { queue := [], drawn := 0 }
    race := { queue := [], drawn := 0 }
    rstN := true
    csN := true
    sclk := false
    mosi := false
    busy := false
    done := false
    err := false
    errCode := .none
    lifecycle := .uninitialized
    configOk := false
    gdo0 := { ff1 := false, ff2 := false }
    gdo2 := { ff1 := false, ff2 := false }
    rdata := 0
    rxCount := 0
    rxOutcome := .none
    rssiRaw := 0
    mem := []
    seq := .idle
    cur := { op := 0, a := 0, d := 0, n := 0 }
    dcnt := 0
    hRdata := 0
    hErr := false
    trace := [] }

end Sys2Proof.Machine
end

