-- ==== Sys2Proof/Machine/Ops.lean ====
section
/-! DEFINITION. The named operations over the state: draws from the transceiver, buffer memory, the pins and the trace, the clock
edge, rejection of a host request and its acknowledgement, acceptance of a command, its completion, and reset. -/

namespace Sys2Proof.Machine

/-! ## Draws (R8, R94) -/

/-- The value of the k-th draw from now on: queued, or else free. -/
def Feed.peek {α : Type} (free : Nat → α) (f : Feed α) (k : Nat) : α := (f.queue[k]?).getD (free (f.drawn + k))

/-- The stream after `k` draws. -/
def Feed.skip {α : Type} (f : Feed α) (k : Nat) : Feed α := { queue := f.queue.drop k, drawn := f.drawn + k }

/-- The byte the transceiver answers in the k-th byte exchange from now on (R94). -/
def State.misoAt (s : State) (k : Nat) : Byte := s.miso.peek Config.misoByte k

/-- The level the k-th sample of the MISO-low wait from now on sees (R97). -/
def State.soAt (s : State) (k : Nat) : Bool := s.soLevel.peek Config.misoLevel k

/-! ## Buffer memory (R48, R49, R56) -/

/-- The address of TXBUF[i]: its byte offset in the host window (R48). -/
def txAddr (i : Nat) : Nat := 0x40 + i

/-- The address of RXBUF[i] (R49). -/
def rxAddr (i : Nat) : Nat := 0x80 + i

/-- The byte at an address; `none` for a byte nothing has written since reset (R56). -/
def memGet (m : Memory) (a : Nat) : Option Byte := m.lookup a

/-- The memory with the byte `b` at address `a`; addresses stay in rising order. -/
def memSet (m : Memory) (a : Nat) (b : Byte) : Memory :=
  match m with
  | [] => [(a, b)]
  | c :: rest => if a < c.1 then (a, b) :: c :: rest else if a = c.1 then (a, b) :: rest else c :: memSet rest a b

/-- The canonical form of the memory: addresses strictly rise, and each is an address of TXBUF or RXBUF. An unlisted address
has no value, so every listed byte differs from what an unlisted address reads as. -/
abbrev Memory.wf (m : Memory) : Prop :=
  m.Pairwise (fun c d => c.1 < d.1) ∧ ∀ c ∈ m, 0x40 ≤ c.1 ∧ c.1 < 0xC0

/-! ## Clock edge (R54, R55) -/

/-- A synchroniser after a clock edge at which its input has level `b` (R54). -/
def Sync.clock (y : Sync) (b : Bool) : Sync := { ff1 := b, ff2 := y.ff1 }

/-- One edge of CLK: the synchronisers shift, and DCNT counts down to 0 (R54, R55). -/
def clockEdge (s : State) : State :=
  { s with
    gdo0 := s.gdo0.clock (s.lines.peek Config.lineLevels 0).1
    gdo2 := s.gdo2.clock (s.lines.peek Config.lineLevels 0).2
    lines := s.lines.skip 1
    dcnt := s.dcnt - 1 }

/-! ## The SPI pins and the trace (R53, R91, R93, R95) -/

/-- A byte's bits in the order they are on the wire: most significant first (R91). -/
def msbFirst (b : Byte) : List Bool :=
  [b.getLsbD 7, b.getLsbD 6, b.getLsbD 5, b.getLsbD 4, b.getLsbD 3, b.getLsbD 2, b.getLsbD 1, b.getLsbD 0]

/-- The byte that eight samples make, the first being the most significant bit (R91). -/
def assembleBits (bits : List Bool) : Byte := bits.foldl (fun acc b => acc <<< 1 ||| (BitVec.ofBool b).setWidth 8) 0

/-- The SPI pins at a moment: the outputs of R53 and the level the transceiver drives on MISO, where it is sampled. -/
structure Pins where
  csN : Bool
  sclk : Bool
  mosi : Bool
  miso : Option Bool
  deriving DecidableEq, Repr

/-- The pins during one SCLK cycle of SPI mode 0 (R93): MOSI is driven while SCLK is low, MISO is sampled at the rising edge,
and SCLK returns to low before MOSI may change. -/
def sclkCycle (mosi miso : Bool) : List Pins :=
  [{ csN := false, sclk := false, mosi := mosi, miso := none },
   { csN := false, sclk := true, mosi := mosi, miso := some miso },
   { csN := false, sclk := false, mosi := mosi, miso := none }]

/-- The 24 moments of a byte exchange: eight SCLK cycles, the most significant bit first both ways (R91, R93). -/
def exchangeWave (m r : Byte) : List Pins := (List.zipWith sclkCycle (msbFirst m) (msbFirst r)).flatten

/-- The pins during a bus event, MOSI being at level `mosi` before it (R93, R95). That MOSI keeps that level at the edges of CS_N
and in a delay is the model's reading (DEDUCED, log entry 14). A delay leaves CS_N high (R285); reset drives all three pins to
their reset values (R301). -/
def BusEvent.wave (mosi : Bool) : BusEvent → List Pins
  | .csFall => [{ csN := false, sclk := false, mosi := mosi, miso := none }]
  | .xfer m r => exchangeWave m r
  | .xferCut seen m r => (exchangeWave m r).take seen.val
  | .resetFall => [{ csN := true, sclk := false, mosi := false, miso := none }]
  | .csRise => [{ csN := true, sclk := false, mosi := mosi, miso := none }]
  | .delayStart _ => [{ csN := true, sclk := false, mosi := mosi, miso := none }]
  | .delayEnd _ => [{ csN := true, sclk := false, mosi := mosi, miso := none }]

/-- The state with one more event seen on the bus. -/
def emit (e : BusEvent) (s : State) : State := { s with trace := s.trace ++ [e] }

/-- `CS_N <- 0` (R95). -/
def csAssert (s : State) : State := emit .csFall { s with csN := false }

/-- `CS_N <- 1` (R95). -/
def csRelease (s : State) : State := emit .csRise { s with csN := true }

/-- `Xfer(m)` (R94): the byte `m` goes out and the transceiver's next byte comes in. MOSI keeps the last bit sent. -/
def exchange (m : Byte) (s : State) : State :=
  emit (.xfer m (s.misoAt 0)) { s with miso := s.miso.skip 1, mosi := m.getLsbD 0 }

/-! ## Delays (R285) -/

/-- What DCNT is loaded with: `ceil(delay_seconds × CLK_HZ)` (R55, R285). -/
def delayCycles (p : Params) : DelayName → Nat
  | .settle => (p.settleDelayUs * p.clkHz + 999999) / 1000000
  | .tx => (p.txDelayUs * p.clkHz + 999999) / 1000000

/-! ## Rejection and its acknowledgement (R270, R275, R280) -/

/-- `raise Reject(code)` (R270): ERR and ERRCODE are written and nothing else changes (R275). It is TRXC's one exceptional
event inside the block, and it saves no state and moves no control (R279). -/
def reject (c : Code) (s : State) : State := { s with err := true, errCode := c }

/-- The acknowledgement of a rejection: ERR and ERRCODE are cleared together (R280, R37). -/
def acknowledge (s : State) : State := { s with err := false, errCode := .none }

/-! ## Acceptance and completion (R270, R42) -/

/-- The part of an accepting CMD write that CUR, the flags and CONFIGURE's own fields see (R270, R190). -/
def capture (i : Instr) (s : State) : State :=
  { s with
    cur := i.fields
    busy := true
    done := false
    lifecycle := if i.operation = .configure then .configuring else s.lifecycle
    configOk := if i.operation = .configure then false else s.configOk }

/-- The working values a command starts with (R222: a new READ_PKT discards the previous ones). -/
def Work.start (m : Memory) : Work := { last := 0, len := 0, k := 0, i := 0, lqi := 0, old := m }

/-- The accepting branch of `Submit` (R270): the command is captured and SEQ stands at the start of its expansion, which is
formed from the captured fields. No SPI activity occurs in this step. -/
def accept (i : Instr) (body : State → List MicroOp) (s : State) : State :=
  { capture i s with seq := .run i.operation (body (capture i s)) (Work.start s.mem) }

/-- The result fields a command writes in its `Complete()` (R42(a)). -/
def writeResult (c : Completion) (w : Work) (s : State) : State :=
  match c with
  | .plain => s
  | .rdata => { s with rdata := w.last }
  | .configured => { s with lifecycle := .ready, configOk := true }
  | .malformed => { s with rxCount := 0, rxOutcome := .malformed }
  | .packet =>
    if w.lqi.getLsbD 7 then { s with rxCount := BitVec.ofNat 7 w.k, rxOutcome := .delivered }
    else { s with rxCount := 0, rxOutcome := .crcFail }
  | .rssiReceived => { s with rssiRaw := w.last }
  | .rssiOperand => { s with rssiRaw := s.cur.d }

/-- `Complete()` (R42): one atomic step that writes the results, clears BUSY, sets DONE and returns SEQ to Idle. -/
def complete (c : Completion) (w : Work) (s : State) : State :=
  { writeResult c w s with busy := false, done := true, seq := .idle }

/-! ## Reset (R300) -/

/-- Every piece of TRXC's state at its reset value (R59), with RST_N = 0. The parameters stay (R304), and so does what stands
outside TRXC: the moves to come, the transceiver, and the record of the pins. -/
def resetRegisters (s : State) : State :=
  { State.reset with
    rstN := false
    params := s.params
    agenda := s.agenda
    miso := s.miso
    soLevel := s.soLevel
    lines := s.lines
    ram := s.ram
    race := s.race
    trace := s.trace }

end Sys2Proof.Machine
end

