-- ==== Sys2Proof/Machine/Operands.lean ====
section
/-! DEFINITION. The operands of a running command, read from CUR (spec/30_encoding.md R124), the SPI header byte (R125 to R127)
and the transactions the commands are made of (spec/20_memory.md R95). -/

namespace Sys2Proof.Machine

/-! ## Operands from CUR (R124) -/

/-- STROBE's opcode `S = CUR.A` (R150). -/
def curStrobe (s : State) : Byte := s.cur.a

/-- The transceiver index `CUR.A[5:0]` (R124). -/
def curIndex (s : State) : Index := s.cur.a.extractLsb' 0 6

/-- The data byte `CUR.D` (R124). -/
def curData (s : State) : Byte := s.cur.d

/-- The byte count `CUR.N` (R124). -/
def curCount (s : State) : Nat := s.cur.n.toNat

/-- READ_PKT's capacity `C = CUR.D` (R220). -/
def curCapacity (s : State) : Nat := s.cur.d.toNat

/-! ## The header byte (R125, R126) -/

/-- A header byte: bit 7 is R/W (1 = read), bit 6 is B (1 = burst or status), bits 5:0 are the index (R125). -/
def header (read burst : Bool) (a : Index) : Byte := BitVec.ofBool read ++ BitVec.ofBool burst ++ a

/-- The header of readRegister: `a | 0x80` (R126). -/
def readHeader (a : Index) : Byte := header true false a

/-- The header of readStatus: `a | 0xC0` (R126). -/
def statusHeader (a : Index) : Byte := header true true a

/-- The header of writeRegister: `a` (R126). -/
def writeHeader (a : Index) : Byte := header false false a

/-- The header of writeBurst: `a | 0x40` (R126). -/
def burstHeader (a : Index) : Byte := header false true a

/-- `FIFO_ADDR` (R9). -/
def fifoAddr : Index := 0x3F

/-- `PATABLE_ADDR` (R9). -/
def patableAddr : Index := 0x3E

/-! ## Transactions (R95) -/

/-- The steps of `SpiTxn` around the exchanges `xs`: chip-select falls, the MISO-low wait if WAIT_SO_LOW, the exchanges, and
chip-select rises (R95). -/
def spiTxn (p : Params) (xs : List MicroOp) : List MicroOp :=
  .csLow :: (if p.waitSoLow then [.waitSo] else []) ++ xs ++ [.csHigh]

/-- `SpiTxn(bs)` of given bytes (R95). -/
def spiBytes (p : Params) (bs : List Byte) : List MicroOp := spiTxn p (bs.map .xfer)

/-- `strobe(cmd)` (R126). -/
def strobeTxn (p : Params) (opcode : Byte) : List MicroOp := spiBytes p [opcode]

/-- `readRegister(addr)` (R126): the value read is the last byte received. -/
def readRegisterTxn (p : Params) (a : Index) : List MicroOp := spiBytes p [readHeader a, p.dummyByte]

/-- `readStatus(addr)` (R126): the value read is the last byte received. -/
def readStatusTxn (p : Params) (a : Index) : List MicroOp := spiBytes p [statusHeader a, p.dummyByte]

/-- `writeRegister(addr, value)` (R126). -/
def writeRegisterTxn (p : Params) (a : Index) (v : Byte) : List MicroOp := spiBytes p [writeHeader a, v]

/-- `writeBurst(addr, bytes)` of given bytes (R126). -/
def writeBurstTxn (p : Params) (a : Index) (bs : List Byte) : List MicroOp := spiBytes p (burstHeader a :: bs)

/-- `writeBurst(addr, TXBUF[0..n-1])`: each byte is read from TXBUF when it is sent (R107, R170, R200). -/
def writeBurstTxbuf (p : Params) (a : Index) (n : Nat) : List MicroOp :=
  spiTxn p (.xfer (burstHeader a) :: (List.range n).map .xferTx)

/-- A single read of the FIFO, `SpiTxn([0xBF, DUMMY_BYTE])` (R127, R223). -/
def fifoRead (p : Params) : List MicroOp := readRegisterTxn p fifoAddr

end Sys2Proof.Machine
end

