-- ==== Sys2Proof/Machine/Sequencer.lean ====
section
/-! DEFINITION. The sequencer (spec/00_scope.md R8, spec/10_state.md R51, spec/20_memory.md R104): one step of a running
command, and the run of a whole command that no other agent interleaves with. -/

namespace Sys2Proof.Machine

/-- Every byte TXBUF[0..n-1] has been written: `TXW[i] = 1` for i < n (R312). -/
def txWritten (s : State) (n : Nat) : Bool := (List.range n).all (fun i => (memGet s.mem (txAddr i)).isSome)

/-- The byte sent for TXBUF[i]. An unwritten byte is a free value (R312); WRITE_BURST and TX never come to send one, since
they fault before their first transaction. -/
def txByte (s : State) (i : Nat) : Byte := (memGet s.mem (txAddr i)).getD (s.ram.peek Config.ramByte 0)

/-- A declared length is malformed: `L = 0` or `L > 64` (R224). -/
def lengthMalformed (len : Nat) : Bool := decide (len = 0 ∨ len > maxPkt)

/-- READ_PKT after a malformed length: the flush-RX strobe (R224). -/
def packetFlush (p : Params) : List MicroOp := strobeTxn p 0x3A ++ [.complete .malformed]

/-- READ_PKT after a well-formed length (R220 steps 3 to 6): the k copied bytes, the L - k dropped bytes and the two trailer
bytes, each with its own single read (R223). -/
def packetTail (p : Params) (len k : Nat) : List MicroOp :=
  (List.replicate k (fifoRead p ++ [.rxStore])).flatten ++ (List.replicate (len - k) (fifoRead p)).flatten ++ fifoRead p ++
    fifoRead p ++ [.latchLqi, .complete .packet]

/-- READ_PKT's decision on the declared length, the last byte received (R220 steps 2 and 3): `k = min(L, C)`. -/
def decideLength (op : Operation) (w : Work) (s : State) : State :=
  let len := w.last.toNat
  let k := min len (curCapacity s)
  if lengthMalformed len then { s with seq := .run op (packetFlush s.params) { w with len := w.last } }
  else { s with seq := .run op (packetTail s.params len k) { w with len := w.last, k := k, i := 0 } }

/-- The effect of the step `m`, with the steps `rest` after it and the working values `w` (R51, R104). -/
def microStep (op : Operation) (m : MicroOp) (rest : List MicroOp) (w : Work) (s : State) : State :=
  match m with
  | .needTx _ => { s with seq := .run op rest w }
  | .needTables => { s with seq := .run op rest w }
  | .csLow => { csAssert s with seq := .run op rest w }
  | .waitSo =>
    if s.soAt 0 then { s with soLevel := s.soLevel.skip 1 }
    else { s with soLevel := s.soLevel.skip 1, seq := .run op rest w }
  | .xfer b => { exchange b s with seq := .run op rest { w with last := s.misoAt 0 } }
  | .xferTx i => { exchange (txByte s i) s with seq := .run op rest { w with last := s.misoAt 0 } }
  | .csHigh => { csRelease s with seq := .run op rest w }
  | .delayStart d => emit (.delayStart d) { s with dcnt := delayCycles s.params d, seq := .run op rest w }
  | .delayEnd d => emit (.delayEnd d) { s with dcnt := 0, seq := .run op rest w }
  | .pktLength => decideLength op w s
  | .rxStore =>
    { s with
      mem := if w.i < 64 then memSet s.mem (rxAddr w.i) w.last else s.mem
      seq := .run op rest { w with i := w.i + 1 } }
  | .latchLqi => { s with seq := .run op rest { w with lqi := w.last } }
  | .complete c => complete c w s

/-- One sequencer step with its clock edge (R104). An Idle sequencer only sees the clock edge (R302), and so does one with no
step left, which no command leaves behind. -/
def seqAdvance (s : State) : State :=
  match s.seq with
  | .idle => clockEdge s
  | .run _ [] _ => clockEdge s
  | .run op (m :: rest) w => microStep op m rest w (clockEdge s)

/-- One sequencer step, or the stop the model makes before a command's first transaction: the fault on unwritten TXBUF bytes
(R312) and the refusal of a PROFILE or PATABLE outside R12 (R278). -/
def seqStep (s : State) : Host.Outcome State Fault Refusal :=
  match s.seq with
  | .run _ (.needTx n :: _) _ => if txWritten s n then .next (seqAdvance s) else .fault .unwrittenTxByte
  | .run _ (.needTables :: _) _ =>
    if s.params.profileLegal then
      if s.params.patableLegal then .next (seqAdvance s) else .refused .patableOutsideDomain
    else .refused .profileOutsideDomain
  | _ => .next (seqAdvance s)

/-- The byte of the exchange the sequencer stands at, if it stands at one. -/
def exchangeAhead (s : State) : Option Byte :=
  match s.seq with
  | .run _ (.xfer b :: _) _ => some b
  | .run _ (.xferTx i :: _) _ => some (txByte s i)
  | _ => none

/-- What the bus sees of the exchange the sequencer stands at when reset comes after `seen` moments of it (R301). -/
def cutExchange (seen : Fin 24) (s : State) : List BusEvent :=
  match exchangeAhead s with
  | some m => if seen.val = 0 then [] else [.xferCut seen m (s.misoAt 0)]
  | none => []

/-- RST_N goes to 0 (R300, R301): every register takes its reset value at once, even in the middle of a byte, of which the bus
then sees the first `seen` moments. A byte cut short has used up the transceiver's answer to it. -/
def enterReset (seen : Fin 24) (s : State) : State :=
  { resetRegisters s with
    miso := s.miso.skip (cutExchange seen s).length
    trace := s.trace ++ cutExchange seen s ++ [.resetFall] }

/-- At most `fuel` sequencer steps, ending when the sequencer is Idle. -/
def runSeq : Nat → State → State
  | 0, s => s
  | fuel + 1, s =>
    match s.seq with
    | .idle => s
    | .run _ _ _ => runSeq fuel (seqAdvance s)

/-- More sequencer steps than any command takes when no MISO-low wait samples a high level: READ_PKT with L = 64 takes at most
403 (R231). -/
def runFuel : Nat := 512

/-- A command issued by a host that then waits for BUSY = 0 (R135, R270): rejected when busy or when an operand is out of its
range, else accepted and run to `Complete()` with no other agent moving in between. Under WAIT_SO_LOW a transceiver that keeps
MISO high leaves the command running (R97). -/
def runCommand (i : Instr) (body : State → List MicroOp) (s : State) : Host.Outcome State Fault Refusal :=
  if s.rstN = false then .refused .hostAccessDuringReset
  else if s.busy then .next (reject .busyCollision s)
  else
    match operandCheck i with
    | some c => .next (reject c s)
    | none =>
      match seqStep (accept i body s) with
      | .next t => .next (runSeq runFuel t)
      | .fault f => .fault f
      | .refused r => .refused r

end Sys2Proof.Machine
end

