-- ==== Sys2Proof/Machine/Lifecycle.lean ====
section
/-! DEFINITION. The lifecycle and transmit commands (spec/41_lifecycle.md): CONFIGURE, RX and TX. A body is a command's pseudocode
as the list of its steps, formed from CUR and the parameters. -/

namespace Sys2Proof.Machine

/-- CONFIGURE() (R190, R191): the reset strobe, the settle delay, PROFILE's entries in table order, and the PATABLE burst. -/
def bodyConfigure (s : State) : List MicroOp :=
  .needTables :: strobeTxn s.params 0x30 ++ [.delayStart .settle, .delayEnd .settle] ++
    (s.params.profile.map (fun e => spiBytes s.params [e.addr, e.value])).flatten ++
    writeBurstTxn s.params patableAddr s.params.patable ++ [.complete .configured]

/-- CONFIGURE: the profile is applied, and LIFECYCLE and CONFIG_OK are written at acceptance and at completion (R190, R192,
R193). -/
def execConfigure (s : State) : Host.Outcome State Fault Refusal := runCommand .configure bodyConfigure s

/-- RX() (R196). -/
def bodyRx (s : State) : List MicroOp := strobeTxn s.params 0x34 ++ [.complete .plain]

/-- RX: the enter-RX strobe is sent (R196, R197). -/
def execRx (s : State) : Host.Outcome State Fault Refusal := runCommand .rx bodyRx s

/-- TX(n) (R200, R201, R202), with the model's fault on unwritten bytes before the first transaction (R203, R312). -/
def bodyTx (s : State) : List MicroOp :=
  .needTx (curCount s) :: strobeTxn s.params 0x36 ++ strobeTxn s.params 0x3B ++
    writeRegisterTxn s.params fifoAddr (BitVec.ofNat 8 (curCount s)) ++ writeBurstTxbuf s.params fifoAddr (curCount s) ++
    strobeTxn s.params 0x35 ++ [.delayStart .tx, .delayEnd .tx, .complete .plain]

/-- TX: one length-prefixed packet is sent from TXBUF, and the command completes after TX_DELAY (R200, R202). -/
def execTx (length : BitVec 7) (s : State) : Host.Outcome State Fault Refusal := runCommand (.tx length) bodyTx s

end Sys2Proof.Machine
end

