-- ==== Sys2Proof/Machine/PacketFramer.lean ====
section
/-! DEFINITION. The receive command (spec/42_packet_framer.md): READ_PKT. Its first step reads the declared length; the rest of its
expansion is `packetTail` in Sequencer.lean, since it depends on that byte (R220). -/

namespace Sys2Proof.Machine

/-- READ_PKT(C), step 1 (R220). -/
def bodyReadPkt (s : State) : List MicroOp := fifoRead s.params ++ [.pktLength]

/-- READ_PKT: one packet is drained from the receive FIFO into RXBUF (R220 to R233). -/
def execReadPkt (capacity : Byte) (s : State) : Host.Outcome State Fault Refusal :=
  runCommand (.readPkt capacity) bodyReadPkt s

end Sys2Proof.Machine
end

