-- ==== Sys2Proof/Machine/RegisterAccess.lean ====
section
/-! DEFINITION. The register-access commands (spec/40_register_access.md): STROBE, READ_REG, READ_STATUS, WRITE_REG and
WRITE_BURST, each one SPI transaction (R176). A body is a command's pseudocode as the list of its steps, formed from CUR. -/

namespace Sys2Proof.Machine

/-- STROBE(S) (R150). -/
def bodyStrobe (s : State) : List MicroOp := strobeTxn s.params (curStrobe s) ++ [.complete .plain]

/-- STROBE: one strobe opcode is sent, and no result field is written (R150, R151). -/
def execStrobe (opcode : Byte) (s : State) : Host.Outcome State Fault Refusal := runCommand (.strobe opcode) bodyStrobe s

/-- READ_REG(a) (R155). -/
def bodyReadReg (s : State) : List MicroOp := readRegisterTxn s.params (curIndex s) ++ [.complete .rdata]

/-- READ_REG: a single read, whose data-phase byte goes to RDATA (R155, R156). -/
def execReadReg (index : Index) (s : State) : Host.Outcome State Fault Refusal := runCommand (.readReg index) bodyReadReg s

/-- READ_STATUS(a) (R160). -/
def bodyReadStatus (s : State) : List MicroOp := readStatusTxn s.params (curIndex s) ++ [.complete .rdata]

/-- READ_STATUS: a read with the read and burst bits both set, whose data-phase byte goes to RDATA (R160, R161). -/
def execReadStatus (index : Index) (s : State) : Host.Outcome State Fault Refusal :=
  runCommand (.readStatus index) bodyReadStatus s

/-- WRITE_REG(a, v) (R165). -/
def bodyWriteReg (s : State) : List MicroOp := writeRegisterTxn s.params (curIndex s) (curData s) ++ [.complete .plain]

/-- WRITE_REG: one byte is written, and nothing is read back (R165, R166). -/
def execWriteReg (index : Index) (value : Byte) (s : State) : Host.Outcome State Fault Refusal :=
  runCommand (.writeReg index value) bodyWriteReg s

/-- WRITE_BURST(a, n) (R170), with the model's fault on unwritten bytes before the transaction (R171, R312). -/
def bodyWriteBurst (s : State) : List MicroOp :=
  .needTx (curCount s) :: writeBurstTxbuf s.params (curIndex s) (curCount s) ++ [.complete .plain]

/-- WRITE_BURST: the first n bytes of TXBUF go out in one burst (R170, R172). -/
def execWriteBurst (index : Index) (count : BitVec 7) (s : State) : Host.Outcome State Fault Refusal :=
  runCommand (.writeBurst index count) bodyWriteBurst s

end Sys2Proof.Machine
end

