-- ==== Sys2Proof/Machine/Rssi.lean ====
section
/-! DEFINITION. The RSSI commands (spec/43_rssi.md): READ_RSSI and DECODE_RSSI. The decoder itself is `rssiDecode` in
Flags.lean. -/

namespace Sys2Proof.Machine

/-- READ_RSSI() (R250). -/
def bodyReadRssi (s : State) : List MicroOp := readStatusTxn s.params s.params.rssiAddr ++ [.complete .rssiReceived]

/-- READ_RSSI: the raw byte of the signal-strength register goes to RSSI_RAW (R250, R251). -/
def execReadRssi (s : State) : Host.Outcome State Fault Refusal := runCommand .readRssi bodyReadRssi s

/-- DECODE_RSSI(r) (R253): no transaction. -/
def bodyDecodeRssi (_ : State) : List MicroOp := [.complete .rssiOperand]

/-- DECODE_RSSI: the operand goes to RSSI_RAW (R253, R254). -/
def execDecodeRssi (raw : Byte) (s : State) : Host.Outcome State Fault Refusal :=
  runCommand (.decodeRssi raw) bodyDecodeRssi s

end Sys2Proof.Machine
end

