-- ==== Sys2Proof/Machine/Dispatch.lean ====
section
/-! DEFINITION. What each command does when a host issues it and waits for it: one arm per constructor of Instr. -/

namespace Sys2Proof.Machine

def exec (i : Instr) (s : State) : Host.Outcome State Fault Refusal :=
  match i with
  | .strobe opcode => Sys2Proof.Machine.execStrobe opcode s
  | .readReg index => Sys2Proof.Machine.execReadReg index s
  | .readStatus index => Sys2Proof.Machine.execReadStatus index s
  | .writeReg index value => Sys2Proof.Machine.execWriteReg index value s
  | .writeBurst index count => Sys2Proof.Machine.execWriteBurst index count s
  | .configure => Sys2Proof.Machine.execConfigure s
  | .rx => Sys2Proof.Machine.execRx s
  | .tx length => Sys2Proof.Machine.execTx length s
  | .readPkt capacity => Sys2Proof.Machine.execReadPkt capacity s
  | .readRssi => Sys2Proof.Machine.execReadRssi s
  | .decodeRssi raw => Sys2Proof.Machine.execDecodeRssi raw s

end Sys2Proof.Machine
end

