-- ==== Sys2Proof/Machine/Flags.lean ====
section
/-! DEFINITION. The STATUS word and its write-1-to-clear flags (spec/10_state.md R34 to R43), the RXINFO word (R45) and the
RSSI decoder behind RSSI_DBM (spec/43_rssi.md R256). -/

namespace Sys2Proof.Machine

/-- STATUS.ERRCODE as its three bits (R271). -/
def codeBits : Code → BitVec 3
  | .none => 0
  | .busyCollision => 1
  | .illegalOp => 2
  | .reservedField => 3
  | .illegalStrobe => 4
  | .badLength => 5

/-- STATUS.LIFECYCLE as its two bits (R38). -/
def lifecycleBits : Lifecycle → BitVec 2
  | .uninitialized => 0
  | .configuring => 1
  | .ready => 2
  | .failed => 3

/-- RXINFO.RX_OUTCOME as its two bits (R45). -/
def outcomeBits : RxOutcome → BitVec 2
  | .none => 0
  | .malformed => 1
  | .crcFail => 2
  | .delivered => 3

/-- STATUS.READY_LINE: the synchronised level of GDO0 (R40). -/
def readyLine (s : State) : Bool := s.gdo0.ff2

/-- STATUS.AUX_LINE: the synchronised level of GDO2 when HAS_AUX, else 0 (R41). -/
def auxLine (s : State) : Bool := s.params.hasAux && s.gdo2.ff2

/-- STATUS.CS_ACTIVE: 1 exactly while CS_N is low (R43). -/
def csActive (s : State) : Bool := !s.csN

/-- The STATUS word (R34), from bit 31 down; its reserved bits 31:15, 11, 7 and 3 read 0 (R50). -/
def statusWord (s : State) : Word :=
  0#17 ++ BitVec.ofBool (csActive s) ++ BitVec.ofBool (auxLine s) ++ BitVec.ofBool (readyLine s) ++ 0#1 ++
    BitVec.ofBool s.configOk ++ lifecycleBits s.lifecycle ++ 0#1 ++ codeBits s.errCode ++ 0#1 ++ BitVec.ofBool s.err ++
    BitVec.ofBool s.done ++ BitVec.ofBool s.busy

/-- The RXINFO word (R45). -/
def rxInfoWord (s : State) : Word := 0#22 ++ outcomeBits s.rxOutcome ++ 0#1 ++ s.rxCount

/-- A host write of `w` to STATUS (R86): bit 1 clears DONE, bit 2 clears ERR and ERRCODE, nothing else has an effect. -/
def writeStatus (w : Word) (s : State) : State :=
  let cleared : State := if w.getLsbD 1 then { s with done := false } else s
  if w.getLsbD 2 then acknowledge cleared else cleared

/-- `RSSI_OFFSET = 74` (R9, R261). -/
def rssiOffset : Int := 74

/-- `RssiDecode(raw)` in dBm (R256), with division truncating toward zero. -/
def rssiDecode (raw : Byte) : Int :=
  if raw.toNat ≥ 128 then Int.tdiv ((raw.toNat : Int) - 256) 2 - rssiOffset else Int.tdiv (raw.toNat : Int) 2 - rssiOffset

/-- The RSSI_DBM word: `sext_32(RssiDecode(RSSI_RAW[7:0]))` (R47). -/
def rssiDbmWord (s : State) : Word := BitVec.ofInt 32 (rssiDecode s.rssiRaw)

end Sys2Proof.Machine
end

