-- ==== Sys2Proof/Machine/HostPort.lean ====
section
/-! DEFINITION. The host port (spec/20_memory.md R80 to R86): submission of a command (spec/60_exceptions.md R270), reads and
writes of the host window, and the host macros of spec/30_encoding.md R135 as lists of moves. -/

namespace Sys2Proof.Machine

/-! ## Submission (R270) -/

/-- The expansion of each command (R51). -/
def bodyOf : Instr → State → List MicroOp
  | .strobe _ => bodyStrobe
  | .readReg _ => bodyReadReg
  | .readStatus _ => bodyReadStatus
  | .writeReg _ _ => bodyWriteReg
  | .writeBurst _ _ => bodyWriteBurst
  | .configure => bodyConfigure
  | .rx => bodyRx
  | .tx _ => bodyTx
  | .readPkt _ => bodyReadPkt
  | .readRssi => bodyReadRssi
  | .decodeRssi _ => bodyDecodeRssi

/-- `Submit(w)`, one atomic step (R270): BUSY_COLLISION first, then Decode's code, else acceptance (R272). -/
def submit (w : Word) (s : State) : State :=
  if s.busy then reject .busyCollision s
  else
    match decode w with
    | .reject c => reject c s
    | .cmd i => accept i (bodyOf i) s

/-! ## Reads (R85) -/

/-- A byte of TXBUF or RXBUF as the j-th byte of a host read sees it: an unwritten byte is a free value (R312), and while
READ_PKT runs an RXBUF byte is its present value or the one from before the command, by a free choice (R108). -/
def hostByte (s : State) (a j : Nat) : Byte :=
  let seen (m : Memory) : Byte := (memGet m a).getD (s.ram.peek Config.ramByte j)
  match s.seq with
  | .run .readPkt _ w => if decide (0x80 ≤ a) && s.race.peek Config.raceOld j then seen w.old else seen s.mem
  | _ => seen s.mem

/-- The word of four buffer bytes at the address `a`, little-endian (R90). -/
def bufferWord (s : State) (a : Nat) : Word :=
  hostByte s (a + 3) 3 ++ hostByte s (a + 2) 2 ++ hostByte s (a + 1) 1 ++ hostByte s a 0

/-- The offset is one of TXBUF's words or RXBUF's words (R32). -/
def inBuffers (off : Nat) : Bool := decide (0x40 ≤ off ∧ off < 0xC0)

/-- The value of the register at a word-aligned byte offset (R32, R85). -/
def readValue (off : Nat) (s : State) : Word :=
  if inBuffers off then bufferWord s off
  else
    match off with
    | 0x04 => statusWord s
    | 0x08 => s.rdata.setWidth 32
    | 0x0C => rxInfoWord s
    | 0x10 => s.rssiRaw.setWidth 32
    | 0x14 => rssiDbmWord s
    | _ => 0

/-- The answer of the host port to a legal access (R82). -/
def answer (v : Word) (s : State) : State := { s with hRdata := v, hErr := false }

/-- The draws a read of a buffer word makes, one of each kind per byte (R312, R108). -/
def drawBytes (s : State) : State := { s with ram := s.ram.skip 4, race := s.race.skip 4 }

/-- `MemRead(off, 4)` (R85): an illegal access faults (R81), and a read changes no register (R83). -/
def memRead (off : BitVec 8) (s : State) : Host.Outcome State Fault Refusal :=
  if off.extractLsb' 0 2 ≠ 0 then .fault .illegalHostAccess
  else .next (answer (readValue off.toNat s) (if inBuffers off.toNat then drawBytes s else s))

/-! ## Writes (R86) -/

/-- The four bytes of a word stored from the address `a` on, little-endian (R90). -/
def storeWord (m : Memory) (a : Nat) (w : Word) : Memory :=
  memSet (memSet (memSet (memSet m a (w.extractLsb' 0 8)) (a + 1) (w.extractLsb' 8 8)) (a + 2) (w.extractLsb' 16 8)) (a + 3)
    (w.extractLsb' 24 8)

/-- A host write of a TXBUF word (R48, R86): rejected while BUSY (R274). -/
def writeTxbuf (off : Nat) (w : Word) (s : State) : State :=
  if s.busy then reject .busyCollision s else { s with mem := storeWord s.mem off w }

/-- The effect of a legal host write at a word-aligned offset (R84, R86); read-only and reserved offsets ignore it. -/
def writeEffect (off : Nat) (w : Word) (s : State) : State :=
  if off = 0x00 then submit w s
  else if off = 0x04 then writeStatus w s
  else if 0x40 ≤ off ∧ off < 0x80 then writeTxbuf off w s
  else s

/-- `MemWrite(off, 4, w)` with byte strobes (R86): an illegal access faults (R81), and every legal one answers `h_err = 0`
(R82). -/
def memWrite (off : BitVec 8) (w : Word) (strb : BitVec 4) (s : State) : Host.Outcome State Fault Refusal :=
  if off.extractLsb' 0 2 ≠ 0 ∨ strb ≠ 0xF then .fault .illegalHostAccess
  else .next { writeEffect off.toNat w s with hErr := false }

/-! ## Host macros (R135) -/

/-- A register name of R32, for `rd`. -/
inductive RegName where
  | cmd | status | rdata | rxinfo | rssiRaw | rssiDbm
  | txbuf (k : Fin 16)
  | rxbuf (k : Fin 16)
  deriving DecidableEq, Repr

/-- `off(R)` (R32). -/
def RegName.off : RegName → BitVec 8
  | .cmd => 0x00
  | .status => 0x04
  | .rdata => 0x08
  | .rxinfo => 0x0C
  | .rssiRaw => 0x10
  | .rssiDbm => 0x14
  | .txbuf k => BitVec.ofNat 8 (0x40 + 4 * k.val)
  | .rxbuf k => BitVec.ofNat 8 (0x80 + 4 * k.val)

/-- `issue X` (R135). -/
def macroIssue (i : Instr) : List Move := [.write 0x00 (encode i) 0xF]

/-- `wait_idle` (R135). -/
def macroWaitIdle : List Move := [.waitIdle]

/-- `clrflags` (R135). -/
def macroClrflags : List Move := [.write 0x04 0x00000006 0xF]

/-- `ldtx k, w` (R135). -/
def macroLdtx (k : Fin 16) (w : Word) : List Move := [.write (BitVec.ofNat 8 (0x40 + 4 * k.val)) w 0xF]

/-- `rd R` (R135). -/
def macroRd (r : RegName) : List Move := [.read r.off]

end Sys2Proof.Machine
end

