-- ==== Sys2Proof/Machine/Moves.lean ====
section
/-! DEFINITION. One move of the whole machine (spec/20_memory.md R103, R104): which agent moves is plain data, the head of the
agenda; when the agenda is empty the sequencer runs on. -/

namespace Sys2Proof.Machine

/-- A command line at the host port (R135): the word is submitted, and an accepted command runs to its end. -/
def issueCommand (w : Word) (s : State) : Host.Outcome State Fault Refusal :=
  if s.rstN = false then .refused .hostAccessDuringReset
  else if s.busy then .next (reject .busyCollision s)
  else
    match decode w with
    | .reject c => .next (reject c s)
    | .cmd i => exec i s

/-- One poll of `wait_idle` (R135): STATUS is read; while BUSY = 1 the sequencer goes on and the host polls again. -/
def pollIdle (rest : List Move) (s : State) : Host.Outcome State Fault Refusal :=
  if s.busy then seqStep (answer (statusWord s) s)
  else .next (clockEdge { answer (statusWord s) s with agenda := rest })

/-- The clock edge that a host access of the synchronous port takes (R80), after its effect: the lines are sampled anew, so that
two reads of STATUS see independent levels once the synchronisers are filled (R40, R54). -/
def clocked (o : Host.Outcome State Fault Refusal) : Host.Outcome State Fault Refusal :=
  match o with
  | .next t => .next (clockEdge t)
  | .fault f => .fault f
  | .refused r => .refused r

/-- The move `m` while RST_N = 1, with the moves `rest` after it. -/
def moveRunning (m : Move) (rest : List Move) (s : State) : Host.Outcome State Fault Refusal :=
  match m with
  | .read off => clocked (memRead off { s with agenda := rest })
  | .write off w strb => clocked (memWrite off w strb { s with agenda := rest })
  | .command w => clocked (issueCommand w { s with agenda := .waitIdle :: rest })
  | .waitIdle => pollIdle rest s
  | .sequencer => seqStep { s with agenda := rest }
  | .clock => .next (clockEdge { s with agenda := rest })
  | .resetLow seen => .next (enterReset seen { s with agenda := rest })
  | .resetHigh => .next { s with agenda := rest }

/-- The move `m` while RST_N = 0 (R300): the state holds its reset values, and host accesses have no move (R327). -/
def moveInReset (m : Move) (rest : List Move) (s : State) : Host.Outcome State Fault Refusal :=
  match m with
  | .read _ => .refused .hostAccessDuringReset
  | .write _ _ _ => .refused .hostAccessDuringReset
  | .command _ => .refused .hostAccessDuringReset
  | .waitIdle => .refused .hostAccessDuringReset
  | .sequencer => .next { s with agenda := rest }
  | .clock => .next { s with agenda := rest }
  | .resetLow _ => .next { s with agenda := rest }
  | .resetHigh => .next { s with agenda := rest, rstN := true }

/-- The next move of the machine. With an empty agenda the sequencer takes a step, or an Idle one sees a clock edge (R302). -/
def machineMove (s : State) : Host.Outcome State Fault Refusal :=
  match s.agenda with
  | [] => if s.rstN then seqStep s else .next s
  | m :: rest => if s.rstN then moveRunning m rest s else moveInReset m rest s

end Sys2Proof.Machine
end

