-- ==== Sys2Proof/Machine/Step.lean ====
section
/-! DEFINITION. One step of the machine, and how a command word comes to be its next instruction. -/

namespace Sys2Proof.Machine

/-- One step: the next move of the agenda, or of the sequencer (R103, R104). -/
def step (s : State) : Host.Outcome State Fault Refusal := machineMove s

/-- The state in which the host's next move is to issue the command word given by the low `nbits` bits of `w`, and to wait for
it: TRXC fetches nothing (R31), so its next instruction is the next word the host submits (R33). -/
def State.withFetchWord (s : State) (nbits w : Nat) : State :=
  { s with agenda := .command (BitVec.ofNat 32 (w % 2 ^ nbits)) :: s.agenda }

end Sys2Proof.Machine
end

