-- ==== Sys2Proof/Safety.lean ====
section
/-! DEFINITION. What counts as a safe run, in the terms the statements use: the invariants of the machine, the conditions under
which a command completes, what a transaction looks like on the bus, and what a command keeps. -/

namespace Sys2Proof.Machine

/-! ## Invariants -/

/-- The steps that remain fit the level of CS_N (R98): exchanges and the MISO-low wait stand inside a transaction, everything
else outside one, each transaction falls once and rises once, and the last step is `Complete()`, or READ_PKT's decision on
the length, which supplies the steps after it. -/
def posFits : Bool → List MicroOp → Bool
  | _, [] => false
  | csN, .needTx _ :: rest => csN && posFits csN rest
  | csN, .needTables :: rest => csN && posFits csN rest
  | csN, .csLow :: rest => csN && posFits false rest
  | csN, .waitSo :: rest => !csN && posFits csN rest
  | csN, .xfer _ :: rest => !csN && posFits csN rest
  | csN, .xferTx _ :: rest => !csN && posFits csN rest
  | csN, .csHigh :: rest => !csN && posFits true rest
  | csN, .delayStart _ :: rest => csN && posFits csN rest
  | csN, .delayEnd _ :: rest => csN && posFits csN rest
  | csN, .pktLength :: rest => csN && rest.isEmpty
  | csN, .rxStore :: rest => csN && posFits csN rest
  | csN, .latchLqi :: rest => csN && posFits csN rest
  | csN, .complete _ :: rest => csN && rest.isEmpty

/-- The `Complete()` each operation ends in (R150 to R253): the result fields it may write. -/
def completes : Operation → Completion → Bool
  | .strobe, c => c == .plain
  | .readReg, c => c == .rdata
  | .readStatus, c => c == .rdata
  | .writeReg, c => c == .plain
  | .writeBurst, c => c == .plain
  | .configure, c => c == .configured
  | .rx, c => c == .plain
  | .tx, c => c == .plain
  | .readPkt, c => c == .malformed || c == .packet
  | .readRssi, c => c == .rssiReceived
  | .decodeRssi, c => c == .rssiOperand

/-- The steps that the expansion of an operation may hold (R51): bytes of TXBUF are sent by WRITE_BURST and TX only, delays are
CONFIGURE's and TX's, RXBUF is written by READ_PKT only, and DECODE_RSSI has no transaction. -/
def stepFits (op : Operation) : MicroOp → Bool
  | .needTx _ => op == .writeBurst || op == .tx
  | .needTables => op == .configure
  | .csLow => op != .decodeRssi
  | .waitSo => op != .decodeRssi
  | .xfer _ => op != .decodeRssi
  | .xferTx _ => op == .writeBurst || op == .tx
  | .csHigh => op != .decodeRssi
  | .delayStart .settle => op == .configure
  | .delayStart .tx => op == .tx
  | .delayEnd .settle => op == .configure
  | .delayEnd .tx => op == .tx
  | .pktLength => op == .readPkt
  | .rxStore => op == .readPkt
  | .latchLqi => op == .readPkt
  | .complete c => completes op c

/-- The step is a check that a command makes before its first transaction (R278, R312). -/
def isCheck : MicroOp → Bool
  | .needTx _ => true
  | .needTables => true
  | .csLow => false
  | .waitSo => false
  | .xfer _ => false
  | .xferTx _ => false
  | .csHigh => false
  | .delayStart _ => false
  | .delayEnd _ => false
  | .pktLength => false
  | .rxStore => false
  | .latchLqi => false
  | .complete _ => false

/-- No check is left among the steps. -/
def noChecks (pos : List MicroOp) : Bool := pos.all (fun m => !isCheck m)

/-- CUR holds the well-formed command whose operation `op` runs (R52), and no check is left unless the command stands at its start,
so that it stops before its first transaction or not at all (R276, R278). -/
def State.CurInv (s : State) (op : Operation) (pos : List MicroOp) : Prop :=
  ∃ i : Instr, i.wf = true ∧ i.operation = op ∧ s.cur = i.fields ∧
    (pos = bodyOf i s ∨ noChecks pos = true)

/-- BUSY and the sequencer agree (R35), BUSY and DONE are never both 1 (R36, R42), chip-select is high when the sequencer is
Idle and fits the steps that remain when it is not (R98), those steps are steps of the operation (R51), and CUR holds it (R52). -/
def State.SeqInv (s : State) : Prop :=
  match s.seq with
  | .idle => s.busy = false ∧ s.csN = true
  | .run op pos w =>
    s.busy = true ∧ s.done = false ∧ posFits s.csN pos = true ∧ pos.all (stepFits op) = true ∧ w.k ≤ maxPkt ∧
      s.CurInv op pos

/-- The register fields hold only values the spec gives them: LIFECYCLE is never Failed (R38, R193), CONFIG_OK = 1 exactly in
Ready (R38, R39), ERRCODE is 0 exactly while ERR = 0 (R37), RXCOUNT is at most 64 and 0 unless DELIVERED (R45, R229), and SCLK
rests low between steps (R93). -/
def State.RegInv (s : State) : Prop :=
  s.lifecycle ≠ .failed ∧ (s.configOk = true ↔ s.lifecycle = .ready) ∧ (s.errCode = .none ↔ s.err = false) ∧
    s.rxCount.toNat ≤ maxPkt ∧ (s.rxOutcome ≠ .delivered → s.rxCount = 0) ∧ s.sclk = false

/-- While RST_N = 0 the machine holds its reset values (R300). -/
def State.ResetInv (s : State) : Prop := s.rstN = false → resetRegisters s = s

/-- The invariant of the machine. -/
def State.Inv (s : State) : Prop := Memory.wf s.mem ∧ s.SeqInv ∧ s.RegInv ∧ s.ResetInv

/-- The operation `op` is at work in the step from `s`: the sequencer runs it, or the host's next move submits a command of it. -/
def State.ActsBy (s : State) (op : Operation) : Prop :=
  (∃ pos w, s.seq = .run op pos w) ∨
    ∃ w rest i, (s.agenda = .write 0x00 w 0xF :: rest ∨ s.agenda = .command w :: rest) ∧ decode w = .cmd i ∧ i.operation = op

/-- An outcome that is no fault and no refusal. -/
def Proceeds (o : Host.Outcome State Fault Refusal) : Prop := ∃ t, o = .next t

/-! ## When a command completes -/

/-- The host may issue a command: RST_N = 1 and BUSY = 0 (R310, R327). -/
def State.Ready (s : State) : Prop := s.rstN = true ∧ s.busy = false

/-- No MISO-low wait of the next `n` transactions holds: WAIT_SO_LOW is false, or MISO is low at each wait's first sample
(R97). -/
def State.SoFree (s : State) (n : Nat) : Prop := s.params.waitSoLow = false ∨ ∀ j < n, s.soAt j = false

/-! ## The bus (R95, R104) -/

/-- The bus events of one transaction that sends `mosi` and receives `miso` (R95). -/
def txnEvents (mosi miso : List Byte) : List BusEvent := .csFall :: List.zipWith .xfer mosi miso ++ [.csRise]

/-- The `n` bytes the transceiver answers from its `k`-th byte from now on (R94). -/
def State.replies (s : State) (k n : Nat) : List Byte := (List.range n).map (fun j => s.misoAt (k + j))

/-- The bus events of the transactions `txns` sent one after another, the first byte answered being the `k`-th from now on. -/
def State.busOf (s : State) (k : Nat) : List (List Byte) → List BusEvent
  | [] => []
  | bs :: rest => txnEvents bs (s.replies k bs.length) ++ s.busOf (k + bs.length) rest

/-- The bytes TXBUF[0..n-1], for a TXBUF whose bytes are written (R48). -/
def State.txBytes (s : State) (n : Nat) : List Byte := (List.range n).map (fun i => (memGet s.mem (txAddr i)).getD 0)

/-- The bytes TXBUF[0..n-1] are written (R308, R312). -/
def State.TxWritten (s : State) (n : Nat) : Prop := ∀ i < n, (memGet s.mem (txAddr i)).isSome = true

/-! ## What a command keeps -/

/-- What no accepted command changes by its end: the parameters, RST_N, SCLK, ERR and ERRCODE (R37), the host port's outputs,
TXBUF (R48), and the model's moves to come and draws of unwritten RAM. -/
def KeptByCommand (s t : State) : Prop :=
  t.params = s.params ∧ t.agenda = s.agenda ∧ t.rstN = s.rstN ∧ t.sclk = s.sclk ∧ t.err = s.err ∧ t.errCode = s.errCode ∧
    t.hRdata = s.hRdata ∧ t.hErr = s.hErr ∧ t.ram = s.ram ∧ t.race = s.race ∧
    ∀ i < 64, memGet t.mem (txAddr i) = memGet s.mem (txAddr i)

/-- LIFECYCLE and CONFIG_OK are kept (R38, R39). -/
def KeptLifecycle (s t : State) : Prop := t.lifecycle = s.lifecycle ∧ t.configOk = s.configOk

/-- RDATA is kept (R44). -/
def KeptRdata (s t : State) : Prop := t.rdata = s.rdata

/-- RXINFO is kept (R45). -/
def KeptRxInfo (s t : State) : Prop := t.rxCount = s.rxCount ∧ t.rxOutcome = s.rxOutcome

/-- RSSI_RAW is kept (R46). -/
def KeptRssi (s t : State) : Prop := t.rssiRaw = s.rssiRaw

/-- Every byte of both buffers is kept, written flags included (R48, R49, R56). -/
def KeptBuffers (s t : State) : Prop := ∀ a, memGet t.mem a = memGet s.mem a

/-- The command `i` has completed (R42): BUSY = 0, DONE = 1, the sequencer is Idle, and CUR holds the command (R52). -/
def Completed (i : Instr) (t : State) : Prop := t.busy = false ∧ t.done = true ∧ t.seq = .idle ∧ t.cur = i.fields

/-- The bus saw exactly the transactions `txns`, in order, the transceiver answering each byte (R95, R102), and chip-select is
released (R98). -/
def Sent (s t : State) (txns : List (List Byte)) : Prop :=
  t.trace = s.trace ++ s.busOf 0 txns ∧ t.miso = s.miso.skip (txns.map List.length).sum ∧ t.csN = true

/-! ## What the transceiver's FIFO receives -/

/-- The bytes a bus record writes to the FIFO: the data bytes of the transactions whose header is a write to index 0x3F, in
order (R125, R127). `inFifo` is `none` before a transaction's header, and then whether the transaction writes the FIFO. -/
def fifoWrites : Option Bool → List BusEvent → List Byte
  | _, [] => []
  | _, .csFall :: rest => fifoWrites none rest
  | none, .xfer m _ :: rest => fifoWrites (some (!m.getLsbD 7 && m.extractLsb' 0 6 == fifoAddr)) rest
  | some true, .xfer m _ :: rest => m :: fifoWrites (some true) rest
  | some false, .xfer _ _ :: rest => fifoWrites (some false) rest
  | st, .csRise :: rest => fifoWrites st rest
  | st, .xferCut _ _ _ :: rest => fifoWrites st rest
  | st, .resetFall :: rest => fifoWrites st rest
  | st, .delayStart _ :: rest => fifoWrites st rest
  | st, .delayEnd _ :: rest => fifoWrites st rest

/-- The number of transactions in a bus record (R20: one chip-select-low interval each). -/
def transactionCount (evs : List BusEvent) : Nat := evs.countP (fun e => e == .csFall)

/-- The event is a whole byte exchange (R94). -/
def isExchange : BusEvent → Bool
  | .csFall => false
  | .xfer _ _ => true
  | .csRise => false
  | .xferCut _ _ _ => false
  | .resetFall => false
  | .delayStart _ => false
  | .delayEnd _ => false

/-- The number of byte exchanges in a bus record. -/
def byteCount (evs : List BusEvent) : Nat := evs.countP isExchange

end Sys2Proof.Machine
end

