-- ==== Sys2Proof/Certificates/Slice0/Obligations.lean ====
section
/-! DEFINITION. The statements about TRXC that the provers settle, each from the numbered rules of spec/. -/

open Sys2Proof Sys2Proof.Machine

/-! ## Encoding -/

/-- Every well-formed command, with every operand value its encoding admits, decodes from its own word (R120 to R124, R134). -/
def Obligations.DecodeOfEncodeIsTheCommand : Prop := ∀ i : Instr, i.wf = true → decode (encode i) = .cmd i

/-- Every accepted word is the encoding of the well-formed command it decodes to, so that no accepted word has a second
meaning and no bit of it is ignored (R122, R123). -/
def Obligations.EncodeOfDecodeIsTheWord : Prop := ∀ (w : Word) (i : Instr), decode w = .cmd i → i.wf = true ∧ encode i = w

/-- Decode checks in R123's order: the illegal OP values, then the reserved fields of each row of R122, then StrobeSet and the
lengths, and else answers the command with its operands formed as R124 says, which carries the word's A, D and N; Submit looks
at BUSY before it decodes. -/
def Obligations.DecodeFollowsTheCheckOrder : Prop :=
  ∀ w : Word,
    let op := w.extractLsb' 0 4
    let a := w.extractLsb' 8 8
    let idx := w.extractLsb' 8 6
    let d := w.extractLsb' 16 8
    let n := w.extractLsb' 24 7
    (op ∈ [0x0#4, 0x6#4, 0x7#4, 0xE#4, 0xF#4] → decode w = .reject .illegalOp) ∧
    (∀ r ∈ [(0x1#4, 0xFFFF00FF#32, 0x00000001#32), (0x2#4, 0xFFFFC0FF#32, 0x00000002#32),
        (0x3#4, 0xFFFFC0FF#32, 0x00000003#32), (0x4#4, 0xFF00C0FF#32, 0x00000004#32),
        (0x5#4, 0x80FFC0FF#32, 0x00000005#32), (0x8#4, 0xFFFFFFFF#32, 0x00000008#32),
        (0x9#4, 0xFFFFFFFF#32, 0x00000009#32), (0xA#4, 0x80FFFFFF#32, 0x0000000A#32),
        (0xB#4, 0xFF00FFFF#32, 0x0000000B#32), (0xC#4, 0xFFFFFFFF#32, 0x0000000C#32),
        (0xD#4, 0xFF00FFFF#32, 0x0000000D#32)],
      op = r.1 → w &&& r.2.1 ≠ r.2.2 → decode w = .reject .reservedField) ∧
    (w &&& 0xFFFF00FF#32 = 0x00000001#32 →
      decode w =
        if a ∈ [0x30#8, 0x31#8, 0x32#8, 0x33#8, 0x34#8, 0x35#8, 0x36#8, 0x3A#8, 0x3B#8, 0x3D#8] then .cmd (.strobe a)
        else .reject .illegalStrobe) ∧
    (w &&& 0xFFFFC0FF#32 = 0x00000002#32 → decode w = .cmd (.readReg idx)) ∧
    (w &&& 0xFFFFC0FF#32 = 0x00000003#32 → decode w = .cmd (.readStatus idx)) ∧
    (w &&& 0xFF00C0FF#32 = 0x00000004#32 → decode w = .cmd (.writeReg idx d)) ∧
    (w &&& 0x80FFC0FF#32 = 0x00000005#32 →
      decode w = if n.toNat > 64 then .reject .badLength else .cmd (.writeBurst idx n)) ∧
    (w = 0x00000008#32 → decode w = .cmd .configure) ∧
    (w = 0x00000009#32 → decode w = .cmd .rx) ∧
    (w &&& 0x80FFFFFF#32 = 0x0000000A#32 →
      decode w = if n.toNat = 0 ∨ n.toNat > 64 then .reject .badLength else .cmd (.tx n)) ∧
    (w &&& 0xFF00FFFF#32 = 0x0000000B#32 → decode w = .cmd (.readPkt d)) ∧
    (w = 0x0000000C#32 → decode w = .cmd .readRssi) ∧
    (w &&& 0xFF00FFFF#32 = 0x0000000D#32 → decode w = .cmd (.decodeRssi d)) ∧
    (∀ i, decode w = .cmd i → i.fields = { op := op, a := a, d := d, n := n }) ∧
    ∀ s : State, s.busy = true → submit w s = reject .busyCollision s

/-- The worked encodings of R136: what the assembler line, the encoder and the decoder each make of them. -/
def Obligations.WorkedEncodingsOfTheSpec : Prop :=
  ∀ p ∈ [(AsmLine.strobe 0x34, Instr.strobe 0x34, 0x00003401#32), (.rdreg 0x12, .readReg 0x12, 0x00001202#32),
      (.rdstat 0x34, .readStatus 0x34, 0x00003403#32), (.wrreg 0x0D 0x10, .writeReg 0x0D 0x10, 0x00100D04#32),
      (.wrburst 0x3E 8, .writeBurst 0x3E 8, 0x08003E05#32), (.tx 5, .tx 5, 0x0500000A#32),
      (.rdpkt 64, .readPkt 64, 0x0040000B#32), (.decrssi 200, .decodeRssi 200, 0x00C8000D#32)],
    assemble p.1 = some p.2.2 ∧ encode p.2.1 = p.2.2 ∧ decode p.2.2 = .cmd p.2.1

/-- An assembler line whose operands are in range assembles to the encoding of its command, and one with an operand out of
range to no word (R134); a named strobe assembles to the strobe of its opcode (R135). The bounds of S of strobe, of A and D of
wrreg and of A of wrburst stand in no row of R134: they are the model's reading, from the fields of R122 (DEDUCED, log entry 24). -/
def Obligations.AssemblerEmitsTheEncoding : Prop :=
  (∀ s : Nat, assemble (.strobe s) = if s < 256 then some (encode (.strobe (BitVec.ofNat 8 s))) else none) ∧
  (∀ a : Nat, assemble (.rdreg a) = if a < 64 then some (encode (.readReg (BitVec.ofNat 6 a))) else none) ∧
  (∀ a : Nat, assemble (.rdstat a) = if a < 64 then some (encode (.readStatus (BitVec.ofNat 6 a))) else none) ∧
  (∀ a d : Nat, assemble (.wrreg a d) =
    if a < 64 ∧ d < 256 then some (encode (.writeReg (BitVec.ofNat 6 a) (BitVec.ofNat 8 d))) else none) ∧
  (∀ a n : Nat, assemble (.wrburst a n) =
    if a < 64 ∧ n ≤ 64 then some (encode (.writeBurst (BitVec.ofNat 6 a) (BitVec.ofNat 7 n))) else none) ∧
  assemble .configure = some (encode .configure) ∧
  assemble .rx = some (encode .rx) ∧
  (∀ n : Nat, assemble (.tx n) = if 1 ≤ n ∧ n ≤ 64 then some (encode (.tx (BitVec.ofNat 7 n))) else none) ∧
  (∀ c : Nat, assemble (.rdpkt c) = if c < 256 then some (encode (.readPkt (BitVec.ofNat 8 c))) else none) ∧
  assemble .rdrssi = some (encode .readRssi) ∧
  (∀ r : Nat, assemble (.decrssi r) = if r < 256 then some (encode (.decodeRssi (BitVec.ofNat 8 r))) else none) ∧
  (∀ p : NamedStrobe, (Instr.strobe p.opcode).wf = true ∧ assemble (.named p) = some (encode (.strobe p.opcode)))

/-- The header byte of each of the five primitives and the data bytes after it (R126), which set R/W and B as R125 says, and the
fixed header bytes of the composite commands (R127). -/
def Obligations.HeaderBytesOfThePrimitives : Prop :=
  (∀ S ∈ strobeSet, header false false (S.extractLsb' 0 6) = S) ∧
  (∀ a : Index, readHeader a = a.setWidth 8 ||| 0x80#8 ∧ statusHeader a = a.setWidth 8 ||| 0xC0#8 ∧
    writeHeader a = a.setWidth 8 ∧ burstHeader a = a.setWidth 8 ||| 0x40#8) ∧
  (∀ (r b : Bool) (a : Index), (header r b a).getLsbD 7 = r ∧ (header r b a).getLsbD 6 = b ∧ (header r b a).extractLsb' 0 6 = a) ∧
  (∀ (p : Params) (s v : Byte) (a : Index) (bs : List Byte),
    strobeTxn p s = spiBytes p [s] ∧
    readRegisterTxn p a = spiBytes p [header true false a, p.dummyByte] ∧
    readStatusTxn p a = spiBytes p [header true true a, p.dummyByte] ∧
    writeRegisterTxn p a v = spiBytes p [header false false a, v] ∧
    writeBurstTxn p a bs = spiBytes p (header false true a :: bs)) ∧
  readHeader 0x12#6 = 0x92#8 ∧ readHeader fifoAddr = 0xBF#8 ∧ writeHeader fifoAddr = 0x3F#8 ∧
  burstHeader fifoAddr = 0x7F#8 ∧ burstHeader patableAddr = 0x7E#8 ∧ statusHeader 0x34#6 = 0xF4#8

/-- On the wire a byte exchange is eight SCLK cycles of SPI mode 0, the most significant bit first both ways (R91, R93). In cycle k
the pins are at three moments: SCLK low, then high with MISO sampled, then low, with CS_N low and MOSI at bit 7 - k throughout; SCLK
is low before and after, at the edges of chip-select. The levels at the eight high moments make up the two bytes. The moments of an
exchange are the model's view of it (DESIGN CHOICE, log entry 15). That MOSI keeps its previous level at the edges of chip-select is
the model's reading, which no rule states (DEDUCED, log entry 14). -/
def Obligations.ExchangeShiftsMostSignificantBitFirst : Prop :=
  ∀ (mosi : Bool) (m r : Byte),
    let wave := BusEvent.wave mosi (.xfer m r)
    let highs := wave.filter (fun p => p.sclk)
    wave.length = 24 ∧
    (∀ k < 8,
      wave[3 * k]? = some { csN := false, sclk := false, mosi := m.getLsbD (7 - k), miso := none } ∧
      wave[3 * k + 1]? = some { csN := false, sclk := true, mosi := m.getLsbD (7 - k), miso := some (r.getLsbD (7 - k)) } ∧
      wave[3 * k + 2]? = some { csN := false, sclk := false, mosi := m.getLsbD (7 - k), miso := none }) ∧
    BusEvent.wave mosi .csFall = [{ csN := false, sclk := false, mosi := mosi, miso := none }] ∧
    BusEvent.wave mosi .csRise = [{ csN := true, sclk := false, mosi := mosi, miso := none }] ∧
    highs.length = 8 ∧ assembleBits (highs.map (fun p => p.mosi)) = m ∧
    assembleBits (highs.map (fun p => p.miso.getD false)) = r

/-! ## Submission and rejection -/

/-- A CMD write and a TXBUF write while BUSY = 1 are rejected with BUSY_COLLISION, complete without a host-port error, and
change nothing else (R273, R274). -/
def Obligations.BusyWritesAreRejected : Prop :=
  ∀ (s : State) (w : Word), s.busy = true →
    memWrite 0x00 w 0xF s = .next { s with err := true, errCode := .busyCollision, hErr := false } ∧
    ∀ k < 16, memWrite (BitVec.ofNat 8 (0x40 + 4 * k)) w 0xF s =
      .next { s with err := true, errCode := .busyCollision, hErr := false }

/-- A CMD write of a word Decode rejects, with BUSY = 0, writes ERR and ERRCODE and changes nothing else: no bus traffic, no
flag, result register or buffer (R275). -/
def Obligations.RejectedWordOnlySetsErr : Prop :=
  ∀ (s : State) (w : Word) (c : Code), s.busy = false → decode w = .reject c →
    memWrite 0x00 w 0xF s = .next { s with err := true, errCode := c, hErr := false }

/-- A CMD write that Decode accepts, with BUSY = 0, captures CUR, sets BUSY, clears DONE and starts the sequencer on the
command; for CONFIGURE it also writes LIFECYCLE and CONFIG_OK; ERR and ERRCODE stay, and no SPI activity and no other change
occurs in that step (R270, R190, R36, R37, R52). -/
def Obligations.AcceptedWordStartsTheCommand : Prop :=
  ∀ (s : State) (w : Word) (i : Instr), s.busy = false → decode w = .cmd i →
    ∃ pos, pos ≠ [] ∧
      memWrite 0x00 w 0xF s = .next
        { s with
          cur := { op := w.extractLsb' 0 4, a := w.extractLsb' 8 8, d := w.extractLsb' 16 8, n := w.extractLsb' 24 7 }
          busy := true
          done := false
          lifecycle := if i = .configure then .configuring else s.lifecycle
          configOk := if i = .configure then false else s.configOk
          seq := .run i.operation pos (Work.start s.mem)
          hErr := false }

/-- ERR, once set, is cleared by no step but a host write to STATUS with bit 2 set, or reset (R37, R280): a whole-machine rule
over every move of every agent and every command. -/
def Obligations.ErrIsClearedOnlyByTheHostOrReset : Prop :=
  ∀ s t : State, s.err = true → step s = .next t → t.err = false →
    (∃ w rest, s.agenda = .write 0x04 w 0xF :: rest ∧ w.getLsbD 2 = true) ∨ t.rstN = false

/-! ## The host port -/

/-- An access that is not an aligned whole word is a fault of the model (R81, R277, R278). -/
def Obligations.IllegalHostAccessFaults : Prop :=
  ∀ (s : State) (off : BitVec 8) (w : Word) (strb : BitVec 4),
    (off.toNat % 4 ≠ 0 → memRead off s = .fault .illegalHostAccess) ∧
    (off.toNat % 4 ≠ 0 ∨ strb ≠ 0xF → memWrite off w strb s = .fault .illegalHostAccess)

/-- Every legal access completes with h_err = 0, a rejected write among them (R82), and leaves the moves to come alone. -/
def Obligations.LegalHostAccessAnswersNoError : Prop :=
  ∀ (s : State) (off : BitVec 8) (w : Word), off.toNat % 4 = 0 →
    (∃ t, memRead off s = .next t ∧ t.hErr = false ∧ t.agenda = s.agenda) ∧
    ∃ t, memWrite off w 0xF s = .next t ∧ t.hErr = false ∧ t.agenda = s.agenda

/-- A host read changes nothing but the port's outputs (R83); the model's draws of unwritten RAM and of races advance. -/
def Obligations.HostReadHasNoSideEffect : Prop :=
  ∀ (s t : State) (off : BitVec 8), memRead off s = .next t →
    t = { s with hRdata := t.hRdata, hErr := t.hErr, ram := t.ram, race := t.race }

/-- What a legal host read returns, offset by offset (R85, R90): the registers, the little-endian words of TXBUF and, unless a
READ_PKT runs, of RXBUF, an unwritten byte being a draw (R312), and 0 at CMD and at the reserved offsets (R33, R50). -/
def Obligations.HostReadReturnsTheRegister : Prop :=
  ∀ (s : State) (off : BitVec 8), off.toNat % 4 = 0 →
    ∃ t, memRead off s = .next t ∧
      (off = 0x00 → t.hRdata = 0) ∧
      (off = 0x04 → t.hRdata = statusWord s) ∧
      (off = 0x08 → t.hRdata = s.rdata.setWidth 32) ∧
      (off = 0x0C → t.hRdata = (outcomeBits s.rxOutcome).setWidth 32 <<< 8 ||| s.rxCount.setWidth 32) ∧
      (off = 0x10 → t.hRdata = s.rssiRaw.setWidth 32) ∧
      (off = 0x14 → t.hRdata = BitVec.ofInt 32 (rssiDecode s.rssiRaw)) ∧
      ((0x18 ≤ off.toNat ∧ off.toNat ≤ 0x3C) ∨ 0xC0 ≤ off.toNat → t.hRdata = 0) ∧
      ((0x40 ≤ off.toNat ∧ off.toNat ≤ 0x7C) ∨
          (0x80 ≤ off.toNat ∧ off.toNat ≤ 0xBC ∧ ∀ pos w, s.seq ≠ .run .readPkt pos w) →
        ∀ j < 4, t.hRdata.extractLsb' (8 * j) 8 =
          (memGet s.mem (off.toNat + j)).getD (s.ram.peek Config.ramByte j))

/-- A host read of an RXBUF word while READ_PKT runs is a race: each of its bytes that is written both before the command and
now is the one or the other (R108). The value from before the command is the model's own field Work.old (log entry 9). -/
def Obligations.RxbufReadDuringReadPktRaces : Prop :=
  ∀ (s t : State) (off : BitVec 8) (pos : List MicroOp) (w : Work), s.seq = .run .readPkt pos w → off.toNat % 4 = 0 →
    0x80 ≤ off.toNat → off.toNat ≤ 0xBC → memRead off s = .next t →
    ∀ j < 4, ∀ old new : Byte, memGet w.old (off.toNat + j) = some old → memGet s.mem (off.toNat + j) = some new →
      t.hRdata.extractLsb' (8 * j) 8 = old ∨ t.hRdata.extractLsb' (8 * j) 8 = new

/-- The layout of STATUS, bit by bit (R34): BUSY, DONE, ERR, ERRCODE, LIFECYCLE, CONFIG_OK, READY_LINE, AUX_LINE and CS_ACTIVE
with their codes (R38, R40, R41, R43, R271), and 0 in the reserved bits. -/
def Obligations.StatusWordLayout : Prop :=
  ∀ s : State,
    (statusWord s).getLsbD 0 = s.busy ∧ (statusWord s).getLsbD 1 = s.done ∧ (statusWord s).getLsbD 2 = s.err ∧
    (statusWord s).getLsbD 3 = false ∧
    ((statusWord s).extractLsb' 4 3).toNat =
      (match s.errCode with
        | .none => 0 | .busyCollision => 1 | .illegalOp => 2 | .reservedField => 3 | .illegalStrobe => 4 | .badLength => 5) ∧
    (statusWord s).getLsbD 7 = false ∧
    ((statusWord s).extractLsb' 8 2).toNat =
      (match s.lifecycle with | .uninitialized => 0 | .configuring => 1 | .ready => 2 | .failed => 3) ∧
    (statusWord s).getLsbD 10 = s.configOk ∧ (statusWord s).getLsbD 11 = false ∧
    (statusWord s).getLsbD 12 = s.gdo0.ff2 ∧ (statusWord s).getLsbD 13 = (s.params.hasAux && s.gdo2.ff2) ∧
    (statusWord s).getLsbD 14 = !s.csN ∧ (statusWord s).extractLsb' 15 17 = 0

/-- A host write to STATUS clears DONE when bit 1 is set and ERR with ERRCODE when bit 2 is set, leaves each alone otherwise,
and changes nothing else (R34, R36, R37, R86). -/
def Obligations.StatusWriteClearsDoneAndErr : Prop :=
  ∀ (s : State) (w : Word),
    memWrite 0x04 w 0xF s = .next
      { s with
        done := if w.getLsbD 1 = true then false else s.done
        err := if w.getLsbD 2 = true then false else s.err
        errCode := if w.getLsbD 2 = true then .none else s.errCode
        hErr := false }

/-- A host write of TXBUF word k with BUSY = 0 stores its four bytes little-endian and marks them written, changes no other
byte and nothing else, and the word reads back (R48, R56, R86, R90). -/
def Obligations.TxbufWriteStoresTheWord : Prop :=
  ∀ (s : State) (k : Nat) (w : Word), k < 16 → s.busy = false →
    ∃ m, memWrite (BitVec.ofNat 8 (0x40 + 4 * k)) w 0xF s = .next { s with mem := m, hErr := false } ∧
      (∀ j < 4, memGet m (txAddr (4 * k + j)) = some (w.extractLsb' (8 * j) 8)) ∧
      (∀ a, (∀ j < 4, a ≠ txAddr (4 * k + j)) → memGet m a = memGet s.mem a) ∧
      ∃ t, memRead (BitVec.ofNat 8 (0x40 + 4 * k)) { s with mem := m, hErr := false } = .next t ∧ t.hRdata = w

/-- A legal host write to any offset but CMD, STATUS and TXBUF is ignored (R84). -/
def Obligations.OtherHostWritesAreIgnored : Prop :=
  ∀ (s : State) (off : BitVec 8) (w : Word), off.toNat % 4 = 0 → off ≠ 0x00 → off ≠ 0x04 →
    ¬(0x40 ≤ off.toNat ∧ off.toNat ≤ 0x7C) → memWrite off w 0xF s = .next { s with hErr := false }

/-! ## Register-access commands -/

/-- STROBE sends its opcode as one one-byte transaction, completes, and writes no register but BUSY, DONE and CUR (R150). -/
def Obligations.StrobeSendsItsOpcode : Prop :=
  ∀ (s : State) (opcode : Byte), s.Ready → (Instr.strobe opcode).wf = true → s.SoFree 1 →
    ∃ t, exec (.strobe opcode) s = .next t ∧ Completed (.strobe opcode) t ∧ Sent s t [[opcode]] ∧ KeptByCommand s t ∧
      KeptLifecycle s t ∧ KeptRdata s t ∧ KeptRxInfo s t ∧ KeptRssi s t ∧ KeptBuffers s t

/-- READ_REG sends `[0x80 | a, DUMMY_BYTE]`, and RDATA takes the byte received in the data phase; nothing else is written
(R155, R156). -/
def Obligations.ReadRegReturnsTheDataByte : Prop :=
  ∀ (s : State) (a : Index), s.Ready → s.SoFree 1 →
    ∃ t, exec (.readReg a) s = .next t ∧ Completed (.readReg a) t ∧
      Sent s t [[0x80#8 ||| a.setWidth 8, s.params.dummyByte]] ∧ t.rdata = s.misoAt 1 ∧ KeptByCommand s t ∧
      KeptLifecycle s t ∧ KeptRxInfo s t ∧ KeptRssi s t ∧ KeptBuffers s t

/-- READ_STATUS sends `[0xC0 | a, DUMMY_BYTE]`, and RDATA takes the byte received in the data phase; RSSI_RAW is not written,
whatever the index (R160, R161, R162). -/
def Obligations.ReadStatusReturnsTheDataByte : Prop :=
  ∀ (s : State) (a : Index), s.Ready → s.SoFree 1 →
    ∃ t, exec (.readStatus a) s = .next t ∧ Completed (.readStatus a) t ∧
      Sent s t [[0xC0#8 ||| a.setWidth 8, s.params.dummyByte]] ∧ t.rdata = s.misoAt 1 ∧ KeptByCommand s t ∧
      KeptLifecycle s t ∧ KeptRxInfo s t ∧ KeptRssi s t ∧ KeptBuffers s t

/-- WRITE_REG sends `[a, v]`, completes, and writes no register but BUSY, DONE and CUR (R165, R166). -/
def Obligations.WriteRegSendsAddressAndValue : Prop :=
  ∀ (s : State) (a : Index) (v : Byte), s.Ready → s.SoFree 1 →
    ∃ t, exec (.writeReg a v) s = .next t ∧ Completed (.writeReg a v) t ∧ Sent s t [[a.setWidth 8, v]] ∧
      KeptByCommand s t ∧ KeptLifecycle s t ∧ KeptRdata s t ∧ KeptRxInfo s t ∧ KeptRssi s t ∧ KeptBuffers s t

/-- WRITE_BURST of n written bytes sends `[0x40 | a] ++ TXBUF[0..n-1]` as one transaction, for n = 0 the header alone, and
writes no register but BUSY, DONE and CUR (R170, R171, R172). -/
def Obligations.WriteBurstSendsTxbuf : Prop :=
  ∀ (s : State) (a : Index) (n : BitVec 7), s.Ready → n.toNat ≤ 64 → s.TxWritten n.toNat → s.SoFree 1 →
    ∃ t, exec (.writeBurst a n) s = .next t ∧ Completed (.writeBurst a n) t ∧
      Sent s t [(0x40#8 ||| a.setWidth 8) :: s.txBytes n.toNat] ∧ KeptByCommand s t ∧ KeptLifecycle s t ∧ KeptRdata s t ∧
      KeptRxInfo s t ∧ KeptRssi s t ∧ KeptBuffers s t

/-- WRITE_BURST and TX whose bytes include an unwritten one fault before their first transaction (R312, R171, R203). -/
def Obligations.UnwrittenTxByteFaults : Prop :=
  ∀ (s : State) (n : BitVec 7), s.Ready → n.toNat ≤ 64 → ¬s.TxWritten n.toNat →
    (∀ a : Index, exec (.writeBurst a n) s = .fault .unwrittenTxByte) ∧ exec (.tx n) s = .fault .unwrittenTxByte

/-! ## Lifecycle and transmit commands -/

/-- CONFIGURE sends the reset strobe, waits the settle delay, writes PROFILE in table order and then the PATABLE burst, and
completes with LIFECYCLE = Ready and CONFIG_OK = 1; it writes no other register (R190, R191, R192, R193). -/
def Obligations.ConfigureAppliesTheProfile : Prop :=
  ∀ s : State, s.Ready → s.params.profile.length = 30 → (∀ e ∈ s.params.profile, e.top = 0) →
    s.params.patable.length = 8 → s.SoFree 32 →
    ∃ t, exec .configure s = .next t ∧ Completed .configure t ∧
      t.trace = s.trace ++ s.busOf 0 [[0x30]] ++ [.delayStart .settle, .delayEnd .settle] ++
        s.busOf 1 (s.params.profile.map (fun e => [e.index.setWidth 8, e.value]) ++ [0x7E :: s.params.patable]) ∧
      t.miso = s.miso.skip 70 ∧ t.csN = true ∧ t.lifecycle = .ready ∧ t.configOk = true ∧ KeptByCommand s t ∧
      KeptRdata s t ∧ KeptRxInfo s t ∧ KeptRssi s t ∧ KeptBuffers s t

/-- CONFIGURE with a PROFILE outside R12 is refused (R278), and so is one with a PATABLE that has not 8 bytes, which is the
model's own reading of R12 (log entry 22). -/
def Obligations.ConfigureRefusesTablesOutsideTheirDomain : Prop :=
  ∀ s : State, s.Ready →
    (s.params.profile.length ≠ 30 ∨ (∃ e ∈ s.params.profile, e.top ≠ 0) →
      exec .configure s = .refused .profileOutsideDomain) ∧
    (s.params.profile.length = 30 → (∀ e ∈ s.params.profile, e.top = 0) → s.params.patable.length ≠ 8 →
      exec .configure s = .refused .patableOutsideDomain)

/-- RX sends the enter-RX strobe 0x34 and writes no register but BUSY, DONE and CUR, in every lifecycle state (R196, R197). It is
rejected at acceptance only: with BUSY_COLLISION while BUSY = 1, and with RESERVED_FIELD for a nonzero bit outside OP (R197). -/
def Obligations.RxSendsTheEnterRxStrobe : Prop :=
  (∀ s : State, s.Ready → s.SoFree 1 →
    ∃ t, exec .rx s = .next t ∧ Completed .rx t ∧ Sent s t [[0x34]] ∧ KeptByCommand s t ∧ KeptLifecycle s t ∧
      KeptRdata s t ∧ KeptRxInfo s t ∧ KeptRssi s t ∧ KeptBuffers s t) ∧
  (∀ s : State, s.rstN = true → s.busy = true → exec .rx s = .next (reject .busyCollision s)) ∧
  ∀ w : Word, w.extractLsb' 0 4 = 0x9 → decode w = if w = 0x00000009 then .cmd .rx else .reject .reservedField

/-- TX of n written bytes sends enter-IDLE, flush-TX, the length byte, the payload burst and enter-TX (0x35), waits TX_DELAY and
completes; it writes no register but BUSY, DONE and CUR (R200, R201, R202, R203). -/
def Obligations.TxSendsTheFramedPacket : Prop :=
  ∀ (s : State) (n : BitVec 7), s.Ready → 1 ≤ n.toNat → n.toNat ≤ 64 → s.TxWritten n.toNat → s.SoFree 5 →
    ∃ t, exec (.tx n) s = .next t ∧ Completed (.tx n) t ∧
      t.trace = s.trace ++
        s.busOf 0 [[0x36], [0x3B], [0x3F, n.setWidth 8], 0x7F :: s.txBytes n.toNat, [0x35]] ++
        [.delayStart .tx, .delayEnd .tx] ∧
      t.miso = s.miso.skip (n.toNat + 6) ∧ t.csN = true ∧ KeptByCommand s t ∧ KeptLifecycle s t ∧ KeptRdata s t ∧
      KeptRxInfo s t ∧ KeptRssi s t ∧ KeptBuffers s t

/-! ## Packet framer -/

/-- READ_PKT with a declared length of 0 or above 64 sends the flush-RX strobe, reads no further byte, and completes with
RXCOUNT = 0 and MALFORMED; RXBUF is untouched (R224). -/
def Obligations.ReadPktMalformedLengthFlushes : Prop :=
  ∀ (s : State) (c : Byte), s.Ready → s.SoFree 2 → ((s.misoAt 1).toNat = 0 ∨ (s.misoAt 1).toNat > 64) →
    ∃ t, exec (.readPkt c) s = .next t ∧ Completed (.readPkt c) t ∧ Sent s t [[0xBF, s.params.dummyByte], [0x3A]] ∧
      t.rxCount = 0 ∧ t.rxOutcome = .malformed ∧ KeptByCommand s t ∧ KeptLifecycle s t ∧ KeptRdata s t ∧ KeptRssi s t ∧
      KeptBuffers s t

/-- READ_PKT with a declared length L in 1..64 makes L + 3 single reads of the FIFO. It copies the first k = min(L, C) payload
bytes to RXBUF[0..k-1] and writes no other buffer byte, drops the rest, and completes by the CRC-OK bit of the second trailer
byte: RXCOUNT = k and DELIVERED, or RXCOUNT = 0 and CRC_FAIL with the copied bytes left in RXBUF (R220, R223, R225 to R230,
R235). -/
def Obligations.ReadPktDrainsOnePacket : Prop :=
  ∀ (s : State) (c : Byte), s.Ready → s.SoFree 67 →
    let len := (s.misoAt 1).toNat
    let k := min len c.toNat
    1 ≤ len → len ≤ 64 →
    ∃ t, exec (.readPkt c) s = .next t ∧ Completed (.readPkt c) t ∧
      Sent s t (List.replicate (len + 3) [0xBF, s.params.dummyByte]) ∧
      (∀ i < k, memGet t.mem (rxAddr i) = some (s.misoAt (2 * i + 3))) ∧
      (∀ a, (∀ i < k, a ≠ rxAddr i) → memGet t.mem a = memGet s.mem a) ∧
      ((s.misoAt (2 * len + 5)).getLsbD 7 = true → t.rxCount.toNat = k ∧ t.rxOutcome = .delivered) ∧
      ((s.misoAt (2 * len + 5)).getLsbD 7 = false → t.rxCount = 0 ∧ t.rxOutcome = .crcFail) ∧
      KeptByCommand s t ∧ KeptLifecycle s t ∧ KeptRdata s t ∧ KeptRssi s t

/-- Framing round trip (R236): the bytes TX writes to the transmit FIFO are the length and the payload, and a READ_PKT that is
answered those bytes and then two trailer bytes with CRC-OK set, with capacity for all of them, recovers the payload in
RXBUF. -/
def Obligations.TransmittedPacketIsRecovered : Prop :=
  ∀ (s₁ s₂ t₁ : State) (n : BitVec 7) (c : Byte), s₁.Ready → 1 ≤ n.toNat → n.toNat ≤ 64 → s₁.TxWritten n.toNat →
    s₁.SoFree 5 → exec (.tx n) s₁ = .next t₁ →
    let sent := fifoWrites none (t₁.trace.drop s₁.trace.length)
    sent = n.setWidth 8 :: s₁.txBytes n.toNat ∧
    (s₂.Ready → s₂.SoFree 67 → n.toNat ≤ c.toNat →
      (∀ j < sent.length, s₂.misoAt (2 * j + 1) = sent.getD j 0) → (s₂.misoAt (2 * sent.length + 3)).getLsbD 7 = true →
      ∃ t₂, exec (.readPkt c) s₂ = .next t₂ ∧ t₂.rxCount.toNat = n.toNat ∧ t₂.rxOutcome = .delivered ∧
        ∀ i < n.toNat, memGet t₂.mem (rxAddr i) = memGet s₁.mem (txAddr i))

/-- The transactions and bytes of the composite commands: CONFIGURE 32 and 70 (R194), TX 5 and n + 6 (R205), READ_PKT 2 for a
malformed length and L + 3 otherwise (R229). -/
def Obligations.CompositeCommandsCountTheirTransactions : Prop :=
  (∀ s t : State, s.Ready → s.SoFree 32 → s.params.profileLegal = true → s.params.patableLegal = true →
    exec .configure s = .next t →
    transactionCount t.trace = transactionCount s.trace + 32 ∧ byteCount t.trace = byteCount s.trace + 70) ∧
  (∀ (s t : State) (n : BitVec 7), s.Ready → s.SoFree 5 → 1 ≤ n.toNat → n.toNat ≤ 64 → exec (.tx n) s = .next t →
    transactionCount t.trace = transactionCount s.trace + 5 ∧ byteCount t.trace = byteCount s.trace + (n.toNat + 6)) ∧
  (∀ (s t : State) (c : Byte), s.Ready → s.SoFree 67 → exec (.readPkt c) s = .next t →
    transactionCount t.trace = transactionCount s.trace +
      (if (s.misoAt 1).toNat = 0 ∨ (s.misoAt 1).toNat > 64 then 2 else (s.misoAt 1).toNat + 3))

/-! ## RSSI -/

/-- READ_RSSI sends `[0xC0 | RSSI_ADDR, DUMMY_BYTE]`, and RSSI_RAW takes the byte received in the data phase, RSSI_DBM following;
RDATA is not written (R250, R251). -/
def Obligations.ReadRssiStoresTheRawByte : Prop :=
  ∀ s : State, s.Ready → s.SoFree 1 →
    ∃ t, exec .readRssi s = .next t ∧ Completed .readRssi t ∧
      Sent s t [[0xC0#8 ||| s.params.rssiAddr.setWidth 8, s.params.dummyByte]] ∧ t.rssiRaw = s.misoAt 1 ∧
      rssiDbmWord t = BitVec.ofInt 32 (rssiDecode (s.misoAt 1)) ∧ KeptByCommand s t ∧ KeptLifecycle s t ∧ KeptRdata s t ∧
      KeptRxInfo s t ∧ KeptBuffers s t

/-- DECODE_RSSI loads RSSI_RAW with its operand, with no transaction, CS_N as it was, and writes no other register but BUSY, DONE
and CUR (R253, R254). -/
def Obligations.DecodeRssiLoadsTheOperand : Prop :=
  ∀ (s : State) (r : Byte), s.Ready →
    ∃ t, exec (.decodeRssi r) s = .next t ∧ Completed (.decodeRssi r) t ∧ t.trace = s.trace ∧ t.miso = s.miso ∧
      t.csN = s.csN ∧ t.mosi = s.mosi ∧ t.rssiRaw = r ∧ rssiDbmWord t = BitVec.ofInt 32 (rssiDecode r) ∧
      KeptByCommand s t ∧ KeptLifecycle s t ∧ KeptRdata s t ∧ KeptRxInfo s t ∧ KeptBuffers s t

/-- RssiDecode in its equivalent hardware forms (R257): with s the raw byte read as signed 8-bit, it is tdiv(s, 2) - 74, and the
arithmetic shift right by 1 of s, a negative s raised by 1 first, less 74; its values fit 9 signed bits and not 8. -/
def Obligations.RssiDecodeHardwareForm : Prop :=
  (∀ raw : Byte, rssiDecode raw = Int.tdiv raw.toInt 2 - 74 ∧
    rssiDecode raw = (raw.toInt + (if raw.toInt < 0 then 1 else 0)) >>> 1 - 74 ∧
    -256 ≤ rssiDecode raw ∧ rssiDecode raw < 256) ∧
  ∃ raw : Byte, rssiDecode raw < -128

/-- RssiDecode's shape (R258): its range, its two rising runs with their jump, the three inputs of -74, and the inputs whose
output does not fit 8 signed bits; and RSSI_DBM as a signed word is that value (R47). -/
def Obligations.RssiDecodeRange : Prop :=
  (∀ raw : Byte, -138 ≤ rssiDecode raw ∧ rssiDecode raw ≤ -11) ∧
  (∀ raw : Byte, raw.toNat < 128 → rssiDecode raw = -74 + (raw.toNat / 2 : Nat)) ∧
  (∀ raw : Byte, 128 ≤ raw.toNat → rssiDecode raw = -138 + ((raw.toNat - 127) / 2 : Nat)) ∧
  (∀ raw : Byte, rssiDecode raw = -74 ↔ raw = 0 ∨ raw = 1 ∨ raw = 255) ∧
  (∀ raw : Byte, rssiDecode raw < -128 ↔ 128 ≤ raw.toNat ∧ raw.toNat ≤ 146) ∧
  rssiDecode 127 = -11 ∧ rssiDecode 128 = -138 ∧ rssiDecode 253 = -75 ∧ rssiDecode 254 = -75 ∧
  ∀ s : State, (rssiDbmWord s).toInt = rssiDecode s.rssiRaw

/-! ## Every command -/

/-- A command issued while BUSY = 1 is turned away with BUSY_COLLISION, whatever it is, and the running command, CUR, SEQ and
the bus are as they were (R272, R273, R275). -/
def Obligations.BusyCommandIsTurnedAway : Prop :=
  ∀ (i : Instr) (s : State), s.rstN = true → s.busy = true →
    exec i s = .next { s with err := true, errCode := .busyCollision }

/-- No command's behaviour depends on LIFECYCLE (R38, R197, R205, R221): started in two states that differ only in LIFECYCLE,
every command stops in the same way, or answers states that differ at most in LIFECYCLE. -/
def Obligations.CommandsDoNotDependOnLifecycle : Prop :=
  ∀ (i : Instr) (s : State) (l : Lifecycle),
    match exec i s, exec i { s with lifecycle := l } with
    | .next t, .next u => u = { t with lifecycle := u.lifecycle }
    | .fault f, .fault g => f = g
    | .refused r, .refused q => r = q
    | _, _ => False

/-- The step runs the decoded instruction: with RST_N = 1 and BUSY = 0, a step whose next move is to issue a word that decodes
to a command is `exec` of that command, with the host's wait for BUSY = 0 as its next move, and one clock edge after it; and the
word placed by `withFetchWord` is such a move. The agenda of moves, a command line as issue and wait in one step, and the clock
edge per access are the model's choices (log entries 1, 2, 3 and 11). -/
def Obligations.StepRunsTheDecodedCommand : Prop :=
  (∀ (s : State) (w : Word) (i : Instr) (rest : List Move), s.Ready → s.agenda = .command w :: rest → decode w = .cmd i →
    step s = clocked (exec i { s with agenda := .waitIdle :: rest })) ∧
  (∀ (s : State) (nbits w : Nat) (i : Instr), s.Ready → decodeTableWord nbits w = some i →
    step (s.withFetchWord nbits w) = clocked (exec i { s with agenda := .waitIdle :: s.agenda }))

/-- The sequencer refines the commands: what `exec` answers as one step is what the machine reaches in some number of sequencer
steps after the host's CMD write is accepted, whatever moves are to come after them (R104, R105, R270), and by itself when none is.
That a command line runs as one step is the model's choice (log entry 1), which this statement justifies. -/
def Obligations.SequencerStepsReachExec : Prop :=
  ∀ (s t : State) (w : Word) (i : Instr), s.Ready → decode w = .cmd i → exec i { s with hErr := false } = .next t →
    ∃ a n, memWrite 0x00 w 0xF s = .next a ∧
      Host.Core.run Sys2Proof.core n { a with agenda := List.replicate n .sequencer ++ s.agenda } = Host.Outcome.next t ∧
      (s.agenda = [] → Host.Core.run Sys2Proof.core n a = Host.Outcome.next t)

/-! ## The sequencer and the machine -/

/-- The MISO-low wait (R97): at a high level the sequencer stays where it is, with nothing on the bus and CS_N as it was; at a low
one it goes on to the header. That the wait is a step that stays where it is, and no missing step, is the model's choice (log
entry 13). -/
def Obligations.MisoLowWaitHoldsTheSequencer : Prop :=
  ∀ (s : State) (op : Operation) (rest : List MicroOp) (w : Work), s.seq = .run op (.waitSo :: rest) w →
    ∃ t, seqStep s = .next t ∧ t.trace = s.trace ∧ t.csN = s.csN ∧ t.miso = s.miso ∧ t.busy = s.busy ∧
      t.seq = if s.soAt 0 = true then s.seq else .run op rest w

/-- A delay (R285, R55): its first step loads DCNT with the ceiling of the delay times CLK_HZ, SETTLE_DELAY being at least 10 ms
(R10), its last leaves DCNT at 0, and chip-select is not touched by either. The two steps, and whole microseconds and Hz, are the
model's choices (log entries 6, 12 and 31). -/
def Obligations.DelayLoadsAndEmptiesTheCounter : Prop :=
  ∀ (s : State) (op : Operation) (d : DelayName) (rest : List MicroOp) (w : Work),
    (s.seq = .run op (.delayStart d :: rest) w →
      ∃ t us, seqStep s = .next t ∧ us = (match d with | .settle => s.params.settleDelayUs | .tx => s.params.txDelayUs) ∧
        (d = .settle → 10000 ≤ us) ∧
        us * s.params.clkHz ≤ t.dcnt * 1000000 ∧ t.dcnt * 1000000 < us * s.params.clkHz + 1000000 ∧
        t.csN = s.csN ∧ t.seq = .run op rest w ∧ t.trace = s.trace ++ [.delayStart d]) ∧
    (s.seq = .run op (.delayEnd d :: rest) w →
      ∃ t, seqStep s = .next t ∧ t.dcnt = 0 ∧ t.csN = s.csN ∧ t.seq = .run op rest w ∧
        t.trace = s.trace ++ [.delayEnd d])

/-- The synchronisers (R54, R40, R41): the level STATUS shows for a line is the one the input had two clock edges before, so that
it is 0 until two edges after reset; AUX_LINE reads 0 without HAS_AUX. Which steps take a clock edge is the model's choice (log
entry 11). -/
def Obligations.LinesShowTheLevelTwoEdgesBefore : Prop :=
  ∀ s : State,
    (statusWord (clockEdge (clockEdge s))).getLsbD 12 = (s.lines.peek Config.lineLevels 0).1 ∧
    (statusWord (clockEdge (clockEdge s))).getLsbD 13 =
      (s.params.hasAux && (s.lines.peek Config.lineLevels 0).2) ∧
    ∀ seen : Fin 24, (statusWord (clockEdge (enterReset seen s))).getLsbD 12 = false ∧
      (statusWord (clockEdge (enterReset seen s))).getLsbD 13 = false

/-- The bytes of TXBUF do not change while a command runs (R107, R274): no step of any agent from a BUSY state changes one,
reset apart. -/
def Obligations.TxbufIsStableWhileBusy : Prop :=
  ∀ s t : State, s.busy = true → step s = .next t → t.rstN = true →
    ∀ i < 64, memGet t.mem (txAddr i) = memGet s.mem (txAddr i)

/-- BUSY is cleared by nothing but `Complete()`, which also sets DONE and returns the sequencer to Idle, or reset (R35, R42). -/
def Obligations.BusyEndsOnlyByCompleteOrReset : Prop :=
  ∀ s t : State, s.busy = true → step s = .next t → t.busy = false →
    (t.done = true ∧ t.seq = .idle) ∨ t.rstN = false

/-- Which commands change what (R38, R44, R45, R46, R48, R49): from every state that meets the invariant, a step that is no reset
changes RDATA only by READ_REG or READ_STATUS, RXINFO and RXBUF only by READ_PKT, RSSI_RAW only by READ_RSSI or DECODE_RSSI,
LIFECYCLE and CONFIG_OK only by CONFIGURE, and TXBUF only by a host write of a TXBUF word with BUSY = 0. -/
def Obligations.StateChangesOnlyByItsOwnCommands : Prop :=
  ∀ s t : State, s.Inv → step s = .next t → t.rstN = true →
    (t.rdata ≠ s.rdata → s.ActsBy .readReg ∨ s.ActsBy .readStatus) ∧
    (t.rxCount ≠ s.rxCount ∨ t.rxOutcome ≠ s.rxOutcome → s.ActsBy .readPkt) ∧
    (∀ i < 64, memGet t.mem (rxAddr i) ≠ memGet s.mem (rxAddr i) → s.ActsBy .readPkt) ∧
    (t.rssiRaw ≠ s.rssiRaw → s.ActsBy .readRssi ∨ s.ActsBy .decodeRssi) ∧
    (t.lifecycle ≠ s.lifecycle ∨ t.configOk ≠ s.configOk → s.ActsBy .configure) ∧
    (∀ i < 64, memGet t.mem (txAddr i) ≠ memGet s.mem (txAddr i) →
      s.busy = false ∧ ∃ off w rest, s.agenda = .write off w 0xF :: rest ∧ 0x40 ≤ off.toNat ∧ off.toNat ≤ 0x7C)

/-- An Idle machine with no host move to come does nothing: no transaction, no register changes; only the clock runs (R302). That
the idle step is one clock edge is the model's choice (log entry 11). -/
def Obligations.IdleMachineDoesNothing : Prop :=
  ∀ s : State, s.agenda = [] → s.rstN = true → s.seq = .idle →
    ∃ t, step s = .next t ∧
      t = { s with gdo0 := t.gdo0, gdo2 := t.gdo2, lines := t.lines, dcnt := s.dcnt - 1 }

/-! ## Reset and the invariants -/

/-- Reset from any state takes effect in the step RST_N goes to 0 (R300, R301): every register and buffer takes its value of R59,
no result is written, and the parameters stay (R304). It may come in the middle of a byte, of which the bus then sees the first
`seen` moments and no more, and it drives CS_N to 1 and SCLK and MOSI to 0. The moments of a byte, and that the moves to come and
the record outlive reset, are the model's choices (log entries 15 and 16). -/
def Obligations.ResetTakesEffectAtOnce : Prop :=
  (∀ (s : State) (seen : Fin 24) (rest : List Move), s.agenda = .resetLow seen :: rest → s.rstN = true →
    ∃ t, step s = .next t ∧ t.rstN = false ∧ t.csN = true ∧ t.sclk = false ∧ t.mosi = false ∧ t.seq = .idle ∧
      t.busy = false ∧ t.done = false ∧ t.err = false ∧ t.errCode = .none ∧ t.lifecycle = .uninitialized ∧
      t.configOk = false ∧ t.rdata = 0 ∧ t.rxCount = 0 ∧ t.rxOutcome = .none ∧ t.rssiRaw = 0 ∧ t.dcnt = 0 ∧
      t.gdo0 = { ff1 := false, ff2 := false } ∧ t.gdo2 = { ff1 := false, ff2 := false } ∧
      (∀ a, memGet t.mem a = none) ∧ t.params = s.params ∧ t.agenda = rest ∧
      t.trace = s.trace ++
        (match s.seq with
          | .run _ (.xfer b :: _) _ => if seen.val = 0 then [] else [.xferCut seen b (s.misoAt 0)]
          | .run _ (.xferTx i :: _) _ => if seen.val = 0 then [] else [.xferCut seen (txByte s i) (s.misoAt 0)]
          | _ => []) ++ [.resetFall]) ∧
  ∀ (mosi : Bool) (seen : Fin 24) (m r : Byte),
    BusEvent.wave mosi (.xferCut seen m r) = (BusEvent.wave mosi (.xfer m r)).take seen.val ∧
    BusEvent.wave mosi .resetFall = [{ csN := true, sclk := false, mosi := false, miso := none }]

/-- While RST_N = 0 every access of the host is refused, a read, a write, a command line and a poll alike: the spec gives it no move
(R327), and the refusal is the model's choice (log entry 17). Nothing else but the release of RST_N changes anything but the moves
to come (R300): a machine with none stays as it is. -/
def Obligations.HostAccessDuringResetHasNoMove : Prop :=
  (∀ s : State, s.rstN = false → s.agenda = [] → step s = .next s) ∧
  ∀ (s : State) (m : Move) (rest : List Move), s.rstN = false → s.agenda = m :: rest →
    (∀ off, m = .read off → step s = .refused .hostAccessDuringReset) ∧
    (∀ off w strb, m = .write off w strb → step s = .refused .hostAccessDuringReset) ∧
    (∀ w, m = .command w → step s = .refused .hostAccessDuringReset) ∧
    (m = .waitIdle → step s = .refused .hostAccessDuringReset) ∧
    (m = .clock ∨ m = .sequencer ∨ (∃ seen, m = .resetLow seen) → step s = .next { s with agenda := rest }) ∧
    (m = .resetHigh → step s = .next { s with agenda := rest, rstN := true })

/-- The state after reset (R59): the words a host reads, the pins, and no buffer byte written. -/
def Obligations.ResetStateValues : Prop :=
  statusWord State.reset = 0 ∧ State.reset.rdata = 0 ∧ rxInfoWord State.reset = 0 ∧ State.reset.rssiRaw = 0 ∧
    rssiDbmWord State.reset = 0xFFFFFFB6 ∧ State.reset.csN = true ∧ State.reset.sclk = false ∧ State.reset.mosi = false ∧
    State.reset.seq = .idle ∧ State.reset.dcnt = 0 ∧ State.reset.lifecycle = .uninitialized ∧
    State.reset.gdo0 = { ff1 := false, ff2 := false } ∧ State.reset.gdo2 = { ff1 := false, ff2 := false } ∧
    ∀ i < 64, memGet State.reset.mem (txAddr i) = none ∧ memGet State.reset.mem (rxAddr i) = none

/-- The invariant of the machine holds at reset. -/
def Obligations.InvariantHoldsAtReset : Prop := State.reset.Inv

/-- Every step keeps the invariant of the machine, from every state that meets it: the memory keeps its canonical form; BUSY
agrees with the sequencer and excludes DONE, chip-select fits the steps that remain, so that CS_N is low only inside a
transaction and high when Idle, those steps are the operation's own, and CUR holds the running command (R35, R42, R51, R52, R98);
LIFECYCLE is never Failed, CONFIG_OK marks Ready, ERRCODE is 0 exactly while ERR = 0, and RXCOUNT is at most 64 and 0 unless
DELIVERED (R37 to R39, R45, R229); and a machine held in reset holds its reset values (R300). -/
def Obligations.EveryStepKeepsTheInvariant : Prop := ∀ s t : State, s.Inv → step s = .next t → t.Inv

/-- From every state that meets the invariant and has no host move to come, the machine goes on, but for the stops at the start of
WRITE_BURST and of TX with an unwritten byte, which the spec gives (R276, R278, R312), and at the start of CONFIGURE with a PROFILE
outside R12, which the spec gives too (R278), or a PATABLE that has not 8 bytes, which is the model's reading of R12 (DEDUCED, log
entry 22). A held MISO-low wait counts as going on (DESIGN CHOICE, log entry 13). -/
def Obligations.RunningMachineOnlyStopsAtACommandsStart : Prop :=
  ∀ s : State, s.Inv → s.agenda = [] →
    Proceeds (step s) ∨
    ∃ w,
      (∃ (a : Index) (n : BitVec 7), s.cur = (Instr.writeBurst a n).fields ∧ s.seq = .run .writeBurst (bodyWriteBurst s) w ∧
        ¬s.TxWritten n.toNat ∧ step s = .fault .unwrittenTxByte) ∨
      (∃ n : BitVec 7, s.cur = (Instr.tx n).fields ∧ s.seq = .run .tx (bodyTx s) w ∧
        ¬s.TxWritten n.toNat ∧ step s = .fault .unwrittenTxByte) ∨
      (s.cur = Instr.configure.fields ∧ s.seq = .run .configure (bodyConfigure s) w ∧
        ((s.params.profileLegal = false ∧ step s = .refused .profileOutsideDomain) ∨
          (s.params.profileLegal = true ∧ s.params.patableLegal = false ∧ step s = .refused .patableOutsideDomain)))
end

