-- ==== Sys2Proof/Laws/State.lean ====
section
/-! SUPPORT. One lemma per field per named update of the state: what the update writes there, or that it keeps it. -/

namespace Sys2Proof.Machine

variable (s : State)

/-! ## `clockEdge` -/

@[simp] theorem clockEdge_params : (clockEdge s).params = s.params := rfl
@[simp] theorem clockEdge_agenda : (clockEdge s).agenda = s.agenda := rfl
@[simp] theorem clockEdge_miso : (clockEdge s).miso = s.miso := rfl
@[simp] theorem clockEdge_soLevel : (clockEdge s).soLevel = s.soLevel := rfl
@[simp] theorem clockEdge_lines : (clockEdge s).lines = s.lines.skip 1 := rfl
@[simp] theorem clockEdge_ram : (clockEdge s).ram = s.ram := rfl
@[simp] theorem clockEdge_race : (clockEdge s).race = s.race := rfl
@[simp] theorem clockEdge_rstN : (clockEdge s).rstN = s.rstN := rfl
@[simp] theorem clockEdge_csN : (clockEdge s).csN = s.csN := rfl
@[simp] theorem clockEdge_sclk : (clockEdge s).sclk = s.sclk := rfl
@[simp] theorem clockEdge_mosi : (clockEdge s).mosi = s.mosi := rfl
@[simp] theorem clockEdge_busy : (clockEdge s).busy = s.busy := rfl
@[simp] theorem clockEdge_done : (clockEdge s).done = s.done := rfl
@[simp] theorem clockEdge_err : (clockEdge s).err = s.err := rfl
@[simp] theorem clockEdge_errCode : (clockEdge s).errCode = s.errCode := rfl
@[simp] theorem clockEdge_lifecycle : (clockEdge s).lifecycle = s.lifecycle := rfl
@[simp] theorem clockEdge_configOk : (clockEdge s).configOk = s.configOk := rfl
@[simp] theorem clockEdge_gdo0 : (clockEdge s).gdo0 = s.gdo0.clock (s.lines.peek Config.lineLevels 0).1 := rfl
@[simp] theorem clockEdge_gdo2 : (clockEdge s).gdo2 = s.gdo2.clock (s.lines.peek Config.lineLevels 0).2 := rfl
@[simp] theorem clockEdge_rdata : (clockEdge s).rdata = s.rdata := rfl
@[simp] theorem clockEdge_rxCount : (clockEdge s).rxCount = s.rxCount := rfl
@[simp] theorem clockEdge_rxOutcome : (clockEdge s).rxOutcome = s.rxOutcome := rfl
@[simp] theorem clockEdge_rssiRaw : (clockEdge s).rssiRaw = s.rssiRaw := rfl
@[simp] theorem clockEdge_mem : (clockEdge s).mem = s.mem := rfl
@[simp] theorem clockEdge_seq : (clockEdge s).seq = s.seq := rfl
@[simp] theorem clockEdge_cur : (clockEdge s).cur = s.cur := rfl
@[simp] theorem clockEdge_dcnt : (clockEdge s).dcnt = s.dcnt - 1 := rfl
@[simp] theorem clockEdge_hRdata : (clockEdge s).hRdata = s.hRdata := rfl
@[simp] theorem clockEdge_hErr : (clockEdge s).hErr = s.hErr := rfl
@[simp] theorem clockEdge_trace : (clockEdge s).trace = s.trace := rfl

/-! ## `emit` -/

section
variable (e : BusEvent)
@[simp] theorem emit_params : (emit e s).params = s.params := rfl
@[simp] theorem emit_agenda : (emit e s).agenda = s.agenda := rfl
@[simp] theorem emit_miso : (emit e s).miso = s.miso := rfl
@[simp] theorem emit_soLevel : (emit e s).soLevel = s.soLevel := rfl
@[simp] theorem emit_lines : (emit e s).lines = s.lines := rfl
@[simp] theorem emit_ram : (emit e s).ram = s.ram := rfl
@[simp] theorem emit_race : (emit e s).race = s.race := rfl
@[simp] theorem emit_rstN : (emit e s).rstN = s.rstN := rfl
@[simp] theorem emit_csN : (emit e s).csN = s.csN := rfl
@[simp] theorem emit_sclk : (emit e s).sclk = s.sclk := rfl
@[simp] theorem emit_mosi : (emit e s).mosi = s.mosi := rfl
@[simp] theorem emit_busy : (emit e s).busy = s.busy := rfl
@[simp] theorem emit_done : (emit e s).done = s.done := rfl
@[simp] theorem emit_err : (emit e s).err = s.err := rfl
@[simp] theorem emit_errCode : (emit e s).errCode = s.errCode := rfl
@[simp] theorem emit_lifecycle : (emit e s).lifecycle = s.lifecycle := rfl
@[simp] theorem emit_configOk : (emit e s).configOk = s.configOk := rfl
@[simp] theorem emit_gdo0 : (emit e s).gdo0 = s.gdo0 := rfl
@[simp] theorem emit_gdo2 : (emit e s).gdo2 = s.gdo2 := rfl
@[simp] theorem emit_rdata : (emit e s).rdata = s.rdata := rfl
@[simp] theorem emit_rxCount : (emit e s).rxCount = s.rxCount := rfl
@[simp] theorem emit_rxOutcome : (emit e s).rxOutcome = s.rxOutcome := rfl
@[simp] theorem emit_rssiRaw : (emit e s).rssiRaw = s.rssiRaw := rfl
@[simp] theorem emit_mem : (emit e s).mem = s.mem := rfl
@[simp] theorem emit_seq : (emit e s).seq = s.seq := rfl
@[simp] theorem emit_cur : (emit e s).cur = s.cur := rfl
@[simp] theorem emit_dcnt : (emit e s).dcnt = s.dcnt := rfl
@[simp] theorem emit_hRdata : (emit e s).hRdata = s.hRdata := rfl
@[simp] theorem emit_hErr : (emit e s).hErr = s.hErr := rfl
@[simp] theorem emit_trace : (emit e s).trace = s.trace ++ [e] := rfl
end

/-! ## `csAssert` -/

@[simp] theorem csAssert_params : (csAssert s).params = s.params := rfl
@[simp] theorem csAssert_agenda : (csAssert s).agenda = s.agenda := rfl
@[simp] theorem csAssert_miso : (csAssert s).miso = s.miso := rfl
@[simp] theorem csAssert_soLevel : (csAssert s).soLevel = s.soLevel := rfl
@[simp] theorem csAssert_lines : (csAssert s).lines = s.lines := rfl
@[simp] theorem csAssert_ram : (csAssert s).ram = s.ram := rfl
@[simp] theorem csAssert_race : (csAssert s).race = s.race := rfl
@[simp] theorem csAssert_rstN : (csAssert s).rstN = s.rstN := rfl
@[simp] theorem csAssert_csN : (csAssert s).csN = false := rfl
@[simp] theorem csAssert_sclk : (csAssert s).sclk = s.sclk := rfl
@[simp] theorem csAssert_mosi : (csAssert s).mosi = s.mosi := rfl
@[simp] theorem csAssert_busy : (csAssert s).busy = s.busy := rfl
@[simp] theorem csAssert_done : (csAssert s).done = s.done := rfl
@[simp] theorem csAssert_err : (csAssert s).err = s.err := rfl
@[simp] theorem csAssert_errCode : (csAssert s).errCode = s.errCode := rfl
@[simp] theorem csAssert_lifecycle : (csAssert s).lifecycle = s.lifecycle := rfl
@[simp] theorem csAssert_configOk : (csAssert s).configOk = s.configOk := rfl
@[simp] theorem csAssert_gdo0 : (csAssert s).gdo0 = s.gdo0 := rfl
@[simp] theorem csAssert_gdo2 : (csAssert s).gdo2 = s.gdo2 := rfl
@[simp] theorem csAssert_rdata : (csAssert s).rdata = s.rdata := rfl
@[simp] theorem csAssert_rxCount : (csAssert s).rxCount = s.rxCount := rfl
@[simp] theorem csAssert_rxOutcome : (csAssert s).rxOutcome = s.rxOutcome := rfl
@[simp] theorem csAssert_rssiRaw : (csAssert s).rssiRaw = s.rssiRaw := rfl
@[simp] theorem csAssert_mem : (csAssert s).mem = s.mem := rfl
@[simp] theorem csAssert_seq : (csAssert s).seq = s.seq := rfl
@[simp] theorem csAssert_cur : (csAssert s).cur = s.cur := rfl
@[simp] theorem csAssert_dcnt : (csAssert s).dcnt = s.dcnt := rfl
@[simp] theorem csAssert_hRdata : (csAssert s).hRdata = s.hRdata := rfl
@[simp] theorem csAssert_hErr : (csAssert s).hErr = s.hErr := rfl
@[simp] theorem csAssert_trace : (csAssert s).trace = s.trace ++ [.csFall] := rfl

/-! ## `csRelease` -/

@[simp] theorem csRelease_params : (csRelease s).params = s.params := rfl
@[simp] theorem csRelease_agenda : (csRelease s).agenda = s.agenda := rfl
@[simp] theorem csRelease_miso : (csRelease s).miso = s.miso := rfl
@[simp] theorem csRelease_soLevel : (csRelease s).soLevel = s.soLevel := rfl
@[simp] theorem csRelease_lines : (csRelease s).lines = s.lines := rfl
@[simp] theorem csRelease_ram : (csRelease s).ram = s.ram := rfl
@[simp] theorem csRelease_race : (csRelease s).race = s.race := rfl
@[simp] theorem csRelease_rstN : (csRelease s).rstN = s.rstN := rfl
@[simp] theorem csRelease_csN : (csRelease s).csN = true := rfl
@[simp] theorem csRelease_sclk : (csRelease s).sclk = s.sclk := rfl
@[simp] theorem csRelease_mosi : (csRelease s).mosi = s.mosi := rfl
@[simp] theorem csRelease_busy : (csRelease s).busy = s.busy := rfl
@[simp] theorem csRelease_done : (csRelease s).done = s.done := rfl
@[simp] theorem csRelease_err : (csRelease s).err = s.err := rfl
@[simp] theorem csRelease_errCode : (csRelease s).errCode = s.errCode := rfl
@[simp] theorem csRelease_lifecycle : (csRelease s).lifecycle = s.lifecycle := rfl
@[simp] theorem csRelease_configOk : (csRelease s).configOk = s.configOk := rfl
@[simp] theorem csRelease_gdo0 : (csRelease s).gdo0 = s.gdo0 := rfl
@[simp] theorem csRelease_gdo2 : (csRelease s).gdo2 = s.gdo2 := rfl
@[simp] theorem csRelease_rdata : (csRelease s).rdata = s.rdata := rfl
@[simp] theorem csRelease_rxCount : (csRelease s).rxCount = s.rxCount := rfl
@[simp] theorem csRelease_rxOutcome : (csRelease s).rxOutcome = s.rxOutcome := rfl
@[simp] theorem csRelease_rssiRaw : (csRelease s).rssiRaw = s.rssiRaw := rfl
@[simp] theorem csRelease_mem : (csRelease s).mem = s.mem := rfl
@[simp] theorem csRelease_seq : (csRelease s).seq = s.seq := rfl
@[simp] theorem csRelease_cur : (csRelease s).cur = s.cur := rfl
@[simp] theorem csRelease_dcnt : (csRelease s).dcnt = s.dcnt := rfl
@[simp] theorem csRelease_hRdata : (csRelease s).hRdata = s.hRdata := rfl
@[simp] theorem csRelease_hErr : (csRelease s).hErr = s.hErr := rfl
@[simp] theorem csRelease_trace : (csRelease s).trace = s.trace ++ [.csRise] := rfl

/-! ## `exchange` -/

section
variable (m : Byte)
@[simp] theorem exchange_params : (exchange m s).params = s.params := rfl
@[simp] theorem exchange_agenda : (exchange m s).agenda = s.agenda := rfl
@[simp] theorem exchange_miso : (exchange m s).miso = s.miso.skip 1 := rfl
@[simp] theorem exchange_soLevel : (exchange m s).soLevel = s.soLevel := rfl
@[simp] theorem exchange_lines : (exchange m s).lines = s.lines := rfl
@[simp] theorem exchange_ram : (exchange m s).ram = s.ram := rfl
@[simp] theorem exchange_race : (exchange m s).race = s.race := rfl
@[simp] theorem exchange_rstN : (exchange m s).rstN = s.rstN := rfl
@[simp] theorem exchange_csN : (exchange m s).csN = s.csN := rfl
@[simp] theorem exchange_sclk : (exchange m s).sclk = s.sclk := rfl
@[simp] theorem exchange_mosi : (exchange m s).mosi = m.getLsbD 0 := rfl
@[simp] theorem exchange_busy : (exchange m s).busy = s.busy := rfl
@[simp] theorem exchange_done : (exchange m s).done = s.done := rfl
@[simp] theorem exchange_err : (exchange m s).err = s.err := rfl
@[simp] theorem exchange_errCode : (exchange m s).errCode = s.errCode := rfl
@[simp] theorem exchange_lifecycle : (exchange m s).lifecycle = s.lifecycle := rfl
@[simp] theorem exchange_configOk : (exchange m s).configOk = s.configOk := rfl
@[simp] theorem exchange_gdo0 : (exchange m s).gdo0 = s.gdo0 := rfl
@[simp] theorem exchange_gdo2 : (exchange m s).gdo2 = s.gdo2 := rfl
@[simp] theorem exchange_rdata : (exchange m s).rdata = s.rdata := rfl
@[simp] theorem exchange_rxCount : (exchange m s).rxCount = s.rxCount := rfl
@[simp] theorem exchange_rxOutcome : (exchange m s).rxOutcome = s.rxOutcome := rfl
@[simp] theorem exchange_rssiRaw : (exchange m s).rssiRaw = s.rssiRaw := rfl
@[simp] theorem exchange_mem : (exchange m s).mem = s.mem := rfl
@[simp] theorem exchange_seq : (exchange m s).seq = s.seq := rfl
@[simp] theorem exchange_cur : (exchange m s).cur = s.cur := rfl
@[simp] theorem exchange_dcnt : (exchange m s).dcnt = s.dcnt := rfl
@[simp] theorem exchange_hRdata : (exchange m s).hRdata = s.hRdata := rfl
@[simp] theorem exchange_hErr : (exchange m s).hErr = s.hErr := rfl
@[simp] theorem exchange_trace : (exchange m s).trace = s.trace ++ [.xfer m (s.misoAt 0)] := rfl
end

/-! ## `reject` -/

section
variable (c : Code)
@[simp] theorem reject_params : (reject c s).params = s.params := rfl
@[simp] theorem reject_agenda : (reject c s).agenda = s.agenda := rfl
@[simp] theorem reject_miso : (reject c s).miso = s.miso := rfl
@[simp] theorem reject_soLevel : (reject c s).soLevel = s.soLevel := rfl
@[simp] theorem reject_lines : (reject c s).lines = s.lines := rfl
@[simp] theorem reject_ram : (reject c s).ram = s.ram := rfl
@[simp] theorem reject_race : (reject c s).race = s.race := rfl
@[simp] theorem reject_rstN : (reject c s).rstN = s.rstN := rfl
@[simp] theorem reject_csN : (reject c s).csN = s.csN := rfl
@[simp] theorem reject_sclk : (reject c s).sclk = s.sclk := rfl
@[simp] theorem reject_mosi : (reject c s).mosi = s.mosi := rfl
@[simp] theorem reject_busy : (reject c s).busy = s.busy := rfl
@[simp] theorem reject_done : (reject c s).done = s.done := rfl
@[simp] theorem reject_err : (reject c s).err = true := rfl
@[simp] theorem reject_errCode : (reject c s).errCode = c := rfl
@[simp] theorem reject_lifecycle : (reject c s).lifecycle = s.lifecycle := rfl
@[simp] theorem reject_configOk : (reject c s).configOk = s.configOk := rfl
@[simp] theorem reject_gdo0 : (reject c s).gdo0 = s.gdo0 := rfl
@[simp] theorem reject_gdo2 : (reject c s).gdo2 = s.gdo2 := rfl
@[simp] theorem reject_rdata : (reject c s).rdata = s.rdata := rfl
@[simp] theorem reject_rxCount : (reject c s).rxCount = s.rxCount := rfl
@[simp] theorem reject_rxOutcome : (reject c s).rxOutcome = s.rxOutcome := rfl
@[simp] theorem reject_rssiRaw : (reject c s).rssiRaw = s.rssiRaw := rfl
@[simp] theorem reject_mem : (reject c s).mem = s.mem := rfl
@[simp] theorem reject_seq : (reject c s).seq = s.seq := rfl
@[simp] theorem reject_cur : (reject c s).cur = s.cur := rfl
@[simp] theorem reject_dcnt : (reject c s).dcnt = s.dcnt := rfl
@[simp] theorem reject_hRdata : (reject c s).hRdata = s.hRdata := rfl
@[simp] theorem reject_hErr : (reject c s).hErr = s.hErr := rfl
@[simp] theorem reject_trace : (reject c s).trace = s.trace := rfl
end

/-! ## `acknowledge` -/

@[simp] theorem acknowledge_params : (acknowledge s).params = s.params := rfl
@[simp] theorem acknowledge_agenda : (acknowledge s).agenda = s.agenda := rfl
@[simp] theorem acknowledge_miso : (acknowledge s).miso = s.miso := rfl
@[simp] theorem acknowledge_soLevel : (acknowledge s).soLevel = s.soLevel := rfl
@[simp] theorem acknowledge_lines : (acknowledge s).lines = s.lines := rfl
@[simp] theorem acknowledge_ram : (acknowledge s).ram = s.ram := rfl
@[simp] theorem acknowledge_race : (acknowledge s).race = s.race := rfl
@[simp] theorem acknowledge_rstN : (acknowledge s).rstN = s.rstN := rfl
@[simp] theorem acknowledge_csN : (acknowledge s).csN = s.csN := rfl
@[simp] theorem acknowledge_sclk : (acknowledge s).sclk = s.sclk := rfl
@[simp] theorem acknowledge_mosi : (acknowledge s).mosi = s.mosi := rfl
@[simp] theorem acknowledge_busy : (acknowledge s).busy = s.busy := rfl
@[simp] theorem acknowledge_done : (acknowledge s).done = s.done := rfl
@[simp] theorem acknowledge_err : (acknowledge s).err = false := rfl
@[simp] theorem acknowledge_errCode : (acknowledge s).errCode = .none := rfl
@[simp] theorem acknowledge_lifecycle : (acknowledge s).lifecycle = s.lifecycle := rfl
@[simp] theorem acknowledge_configOk : (acknowledge s).configOk = s.configOk := rfl
@[simp] theorem acknowledge_gdo0 : (acknowledge s).gdo0 = s.gdo0 := rfl
@[simp] theorem acknowledge_gdo2 : (acknowledge s).gdo2 = s.gdo2 := rfl
@[simp] theorem acknowledge_rdata : (acknowledge s).rdata = s.rdata := rfl
@[simp] theorem acknowledge_rxCount : (acknowledge s).rxCount = s.rxCount := rfl
@[simp] theorem acknowledge_rxOutcome : (acknowledge s).rxOutcome = s.rxOutcome := rfl
@[simp] theorem acknowledge_rssiRaw : (acknowledge s).rssiRaw = s.rssiRaw := rfl
@[simp] theorem acknowledge_mem : (acknowledge s).mem = s.mem := rfl
@[simp] theorem acknowledge_seq : (acknowledge s).seq = s.seq := rfl
@[simp] theorem acknowledge_cur : (acknowledge s).cur = s.cur := rfl
@[simp] theorem acknowledge_dcnt : (acknowledge s).dcnt = s.dcnt := rfl
@[simp] theorem acknowledge_hRdata : (acknowledge s).hRdata = s.hRdata := rfl
@[simp] theorem acknowledge_hErr : (acknowledge s).hErr = s.hErr := rfl
@[simp] theorem acknowledge_trace : (acknowledge s).trace = s.trace := rfl

/-! ## `capture` -/

section
variable (i : Instr)
@[simp] theorem capture_params : (capture i s).params = s.params := rfl
@[simp] theorem capture_agenda : (capture i s).agenda = s.agenda := rfl
@[simp] theorem capture_miso : (capture i s).miso = s.miso := rfl
@[simp] theorem capture_soLevel : (capture i s).soLevel = s.soLevel := rfl
@[simp] theorem capture_lines : (capture i s).lines = s.lines := rfl
@[simp] theorem capture_ram : (capture i s).ram = s.ram := rfl
@[simp] theorem capture_race : (capture i s).race = s.race := rfl
@[simp] theorem capture_rstN : (capture i s).rstN = s.rstN := rfl
@[simp] theorem capture_csN : (capture i s).csN = s.csN := rfl
@[simp] theorem capture_sclk : (capture i s).sclk = s.sclk := rfl
@[simp] theorem capture_mosi : (capture i s).mosi = s.mosi := rfl
@[simp] theorem capture_busy : (capture i s).busy = true := rfl
@[simp] theorem capture_done : (capture i s).done = false := rfl
@[simp] theorem capture_err : (capture i s).err = s.err := rfl
@[simp] theorem capture_errCode : (capture i s).errCode = s.errCode := rfl
@[simp] theorem capture_lifecycle : (capture i s).lifecycle = if i.operation = .configure then .configuring else s.lifecycle := rfl
@[simp] theorem capture_configOk : (capture i s).configOk = if i.operation = .configure then false else s.configOk := rfl
@[simp] theorem capture_gdo0 : (capture i s).gdo0 = s.gdo0 := rfl
@[simp] theorem capture_gdo2 : (capture i s).gdo2 = s.gdo2 := rfl
@[simp] theorem capture_rdata : (capture i s).rdata = s.rdata := rfl
@[simp] theorem capture_rxCount : (capture i s).rxCount = s.rxCount := rfl
@[simp] theorem capture_rxOutcome : (capture i s).rxOutcome = s.rxOutcome := rfl
@[simp] theorem capture_rssiRaw : (capture i s).rssiRaw = s.rssiRaw := rfl
@[simp] theorem capture_mem : (capture i s).mem = s.mem := rfl
@[simp] theorem capture_seq : (capture i s).seq = s.seq := rfl
@[simp] theorem capture_cur : (capture i s).cur = i.fields := rfl
@[simp] theorem capture_dcnt : (capture i s).dcnt = s.dcnt := rfl
@[simp] theorem capture_hRdata : (capture i s).hRdata = s.hRdata := rfl
@[simp] theorem capture_hErr : (capture i s).hErr = s.hErr := rfl
@[simp] theorem capture_trace : (capture i s).trace = s.trace := rfl
end

/-! ## `accept` -/

section
variable (i : Instr) (body : State → List MicroOp)
@[simp] theorem accept_params : (accept i body s).params = s.params := rfl
@[simp] theorem accept_agenda : (accept i body s).agenda = s.agenda := rfl
@[simp] theorem accept_miso : (accept i body s).miso = s.miso := rfl
@[simp] theorem accept_soLevel : (accept i body s).soLevel = s.soLevel := rfl
@[simp] theorem accept_lines : (accept i body s).lines = s.lines := rfl
@[simp] theorem accept_ram : (accept i body s).ram = s.ram := rfl
@[simp] theorem accept_race : (accept i body s).race = s.race := rfl
@[simp] theorem accept_rstN : (accept i body s).rstN = s.rstN := rfl
@[simp] theorem accept_csN : (accept i body s).csN = s.csN := rfl
@[simp] theorem accept_sclk : (accept i body s).sclk = s.sclk := rfl
@[simp] theorem accept_mosi : (accept i body s).mosi = s.mosi := rfl
@[simp] theorem accept_busy : (accept i body s).busy = true := rfl
@[simp] theorem accept_done : (accept i body s).done = false := rfl
@[simp] theorem accept_err : (accept i body s).err = s.err := rfl
@[simp] theorem accept_errCode : (accept i body s).errCode = s.errCode := rfl
@[simp] theorem accept_lifecycle : (accept i body s).lifecycle = if i.operation = .configure then .configuring else s.lifecycle := rfl
@[simp] theorem accept_configOk : (accept i body s).configOk = if i.operation = .configure then false else s.configOk := rfl
@[simp] theorem accept_gdo0 : (accept i body s).gdo0 = s.gdo0 := rfl
@[simp] theorem accept_gdo2 : (accept i body s).gdo2 = s.gdo2 := rfl
@[simp] theorem accept_rdata : (accept i body s).rdata = s.rdata := rfl
@[simp] theorem accept_rxCount : (accept i body s).rxCount = s.rxCount := rfl
@[simp] theorem accept_rxOutcome : (accept i body s).rxOutcome = s.rxOutcome := rfl
@[simp] theorem accept_rssiRaw : (accept i body s).rssiRaw = s.rssiRaw := rfl
@[simp] theorem accept_mem : (accept i body s).mem = s.mem := rfl
@[simp] theorem accept_seq : (accept i body s).seq = .run i.operation (body (capture i s)) (Work.start s.mem) := rfl
@[simp] theorem accept_cur : (accept i body s).cur = i.fields := rfl
@[simp] theorem accept_dcnt : (accept i body s).dcnt = s.dcnt := rfl
@[simp] theorem accept_hRdata : (accept i body s).hRdata = s.hRdata := rfl
@[simp] theorem accept_hErr : (accept i body s).hErr = s.hErr := rfl
@[simp] theorem accept_trace : (accept i body s).trace = s.trace := rfl
end

/-! ## `answer` -/

section
variable (v : Word)
@[simp] theorem answer_params : (answer v s).params = s.params := rfl
@[simp] theorem answer_agenda : (answer v s).agenda = s.agenda := rfl
@[simp] theorem answer_miso : (answer v s).miso = s.miso := rfl
@[simp] theorem answer_soLevel : (answer v s).soLevel = s.soLevel := rfl
@[simp] theorem answer_lines : (answer v s).lines = s.lines := rfl
@[simp] theorem answer_ram : (answer v s).ram = s.ram := rfl
@[simp] theorem answer_race : (answer v s).race = s.race := rfl
@[simp] theorem answer_rstN : (answer v s).rstN = s.rstN := rfl
@[simp] theorem answer_csN : (answer v s).csN = s.csN := rfl
@[simp] theorem answer_sclk : (answer v s).sclk = s.sclk := rfl
@[simp] theorem answer_mosi : (answer v s).mosi = s.mosi := rfl
@[simp] theorem answer_busy : (answer v s).busy = s.busy := rfl
@[simp] theorem answer_done : (answer v s).done = s.done := rfl
@[simp] theorem answer_err : (answer v s).err = s.err := rfl
@[simp] theorem answer_errCode : (answer v s).errCode = s.errCode := rfl
@[simp] theorem answer_lifecycle : (answer v s).lifecycle = s.lifecycle := rfl
@[simp] theorem answer_configOk : (answer v s).configOk = s.configOk := rfl
@[simp] theorem answer_gdo0 : (answer v s).gdo0 = s.gdo0 := rfl
@[simp] theorem answer_gdo2 : (answer v s).gdo2 = s.gdo2 := rfl
@[simp] theorem answer_rdata : (answer v s).rdata = s.rdata := rfl
@[simp] theorem answer_rxCount : (answer v s).rxCount = s.rxCount := rfl
@[simp] theorem answer_rxOutcome : (answer v s).rxOutcome = s.rxOutcome := rfl
@[simp] theorem answer_rssiRaw : (answer v s).rssiRaw = s.rssiRaw := rfl
@[simp] theorem answer_mem : (answer v s).mem = s.mem := rfl
@[simp] theorem answer_seq : (answer v s).seq = s.seq := rfl
@[simp] theorem answer_cur : (answer v s).cur = s.cur := rfl
@[simp] theorem answer_dcnt : (answer v s).dcnt = s.dcnt := rfl
@[simp] theorem answer_hRdata : (answer v s).hRdata = v := rfl
@[simp] theorem answer_hErr : (answer v s).hErr = false := rfl
@[simp] theorem answer_trace : (answer v s).trace = s.trace := rfl
end

/-! ## `drawBytes` -/

@[simp] theorem drawBytes_params : (drawBytes s).params = s.params := rfl
@[simp] theorem drawBytes_agenda : (drawBytes s).agenda = s.agenda := rfl
@[simp] theorem drawBytes_miso : (drawBytes s).miso = s.miso := rfl
@[simp] theorem drawBytes_soLevel : (drawBytes s).soLevel = s.soLevel := rfl
@[simp] theorem drawBytes_lines : (drawBytes s).lines = s.lines := rfl
@[simp] theorem drawBytes_ram : (drawBytes s).ram = s.ram.skip 4 := rfl
@[simp] theorem drawBytes_race : (drawBytes s).race = s.race.skip 4 := rfl
@[simp] theorem drawBytes_rstN : (drawBytes s).rstN = s.rstN := rfl
@[simp] theorem drawBytes_csN : (drawBytes s).csN = s.csN := rfl
@[simp] theorem drawBytes_sclk : (drawBytes s).sclk = s.sclk := rfl
@[simp] theorem drawBytes_mosi : (drawBytes s).mosi = s.mosi := rfl
@[simp] theorem drawBytes_busy : (drawBytes s).busy = s.busy := rfl
@[simp] theorem drawBytes_done : (drawBytes s).done = s.done := rfl
@[simp] theorem drawBytes_err : (drawBytes s).err = s.err := rfl
@[simp] theorem drawBytes_errCode : (drawBytes s).errCode = s.errCode := rfl
@[simp] theorem drawBytes_lifecycle : (drawBytes s).lifecycle = s.lifecycle := rfl
@[simp] theorem drawBytes_configOk : (drawBytes s).configOk = s.configOk := rfl
@[simp] theorem drawBytes_gdo0 : (drawBytes s).gdo0 = s.gdo0 := rfl
@[simp] theorem drawBytes_gdo2 : (drawBytes s).gdo2 = s.gdo2 := rfl
@[simp] theorem drawBytes_rdata : (drawBytes s).rdata = s.rdata := rfl
@[simp] theorem drawBytes_rxCount : (drawBytes s).rxCount = s.rxCount := rfl
@[simp] theorem drawBytes_rxOutcome : (drawBytes s).rxOutcome = s.rxOutcome := rfl
@[simp] theorem drawBytes_rssiRaw : (drawBytes s).rssiRaw = s.rssiRaw := rfl
@[simp] theorem drawBytes_mem : (drawBytes s).mem = s.mem := rfl
@[simp] theorem drawBytes_seq : (drawBytes s).seq = s.seq := rfl
@[simp] theorem drawBytes_cur : (drawBytes s).cur = s.cur := rfl
@[simp] theorem drawBytes_dcnt : (drawBytes s).dcnt = s.dcnt := rfl
@[simp] theorem drawBytes_hRdata : (drawBytes s).hRdata = s.hRdata := rfl
@[simp] theorem drawBytes_hErr : (drawBytes s).hErr = s.hErr := rfl
@[simp] theorem drawBytes_trace : (drawBytes s).trace = s.trace := rfl

/-! ## `writeResult` and `complete` -/

section
variable (c : Completion) (w : Work)
@[simp] theorem writeResult_params : (writeResult c w s).params = s.params := by
  cases c <;> first | rfl | (simp only [writeResult]; split <;> rfl)
@[simp] theorem writeResult_agenda : (writeResult c w s).agenda = s.agenda := by
  cases c <;> first | rfl | (simp only [writeResult]; split <;> rfl)
@[simp] theorem writeResult_miso : (writeResult c w s).miso = s.miso := by
  cases c <;> first | rfl | (simp only [writeResult]; split <;> rfl)
@[simp] theorem writeResult_soLevel : (writeResult c w s).soLevel = s.soLevel := by
  cases c <;> first | rfl | (simp only [writeResult]; split <;> rfl)
@[simp] theorem writeResult_lines : (writeResult c w s).lines = s.lines := by
  cases c <;> first | rfl | (simp only [writeResult]; split <;> rfl)
@[simp] theorem writeResult_ram : (writeResult c w s).ram = s.ram := by
  cases c <;> first | rfl | (simp only [writeResult]; split <;> rfl)
@[simp] theorem writeResult_race : (writeResult c w s).race = s.race := by
  cases c <;> first | rfl | (simp only [writeResult]; split <;> rfl)
@[simp] theorem writeResult_rstN : (writeResult c w s).rstN = s.rstN := by
  cases c <;> first | rfl | (simp only [writeResult]; split <;> rfl)
@[simp] theorem writeResult_csN : (writeResult c w s).csN = s.csN := by
  cases c <;> first | rfl | (simp only [writeResult]; split <;> rfl)
@[simp] theorem writeResult_sclk : (writeResult c w s).sclk = s.sclk := by
  cases c <;> first | rfl | (simp only [writeResult]; split <;> rfl)
@[simp] theorem writeResult_mosi : (writeResult c w s).mosi = s.mosi := by
  cases c <;> first | rfl | (simp only [writeResult]; split <;> rfl)
@[simp] theorem writeResult_busy : (writeResult c w s).busy = s.busy := by
  cases c <;> first | rfl | (simp only [writeResult]; split <;> rfl)
@[simp] theorem writeResult_done : (writeResult c w s).done = s.done := by
  cases c <;> first | rfl | (simp only [writeResult]; split <;> rfl)
@[simp] theorem writeResult_err : (writeResult c w s).err = s.err := by
  cases c <;> first | rfl | (simp only [writeResult]; split <;> rfl)
@[simp] theorem writeResult_errCode : (writeResult c w s).errCode = s.errCode := by
  cases c <;> first | rfl | (simp only [writeResult]; split <;> rfl)
@[simp] theorem writeResult_gdo0 : (writeResult c w s).gdo0 = s.gdo0 := by
  cases c <;> first | rfl | (simp only [writeResult]; split <;> rfl)
@[simp] theorem writeResult_gdo2 : (writeResult c w s).gdo2 = s.gdo2 := by
  cases c <;> first | rfl | (simp only [writeResult]; split <;> rfl)
@[simp] theorem writeResult_mem : (writeResult c w s).mem = s.mem := by
  cases c <;> first | rfl | (simp only [writeResult]; split <;> rfl)
@[simp] theorem writeResult_seq : (writeResult c w s).seq = s.seq := by
  cases c <;> first | rfl | (simp only [writeResult]; split <;> rfl)
@[simp] theorem writeResult_cur : (writeResult c w s).cur = s.cur := by
  cases c <;> first | rfl | (simp only [writeResult]; split <;> rfl)
@[simp] theorem writeResult_dcnt : (writeResult c w s).dcnt = s.dcnt := by
  cases c <;> first | rfl | (simp only [writeResult]; split <;> rfl)
@[simp] theorem writeResult_hRdata : (writeResult c w s).hRdata = s.hRdata := by
  cases c <;> first | rfl | (simp only [writeResult]; split <;> rfl)
@[simp] theorem writeResult_hErr : (writeResult c w s).hErr = s.hErr := by
  cases c <;> first | rfl | (simp only [writeResult]; split <;> rfl)
@[simp] theorem writeResult_trace : (writeResult c w s).trace = s.trace := by
  cases c <;> first | rfl | (simp only [writeResult]; split <;> rfl)
@[simp] theorem complete_params : (complete c w s).params = s.params := writeResult_params s c w
@[simp] theorem complete_agenda : (complete c w s).agenda = s.agenda := writeResult_agenda s c w
@[simp] theorem complete_miso : (complete c w s).miso = s.miso := writeResult_miso s c w
@[simp] theorem complete_soLevel : (complete c w s).soLevel = s.soLevel := writeResult_soLevel s c w
@[simp] theorem complete_lines : (complete c w s).lines = s.lines := writeResult_lines s c w
@[simp] theorem complete_ram : (complete c w s).ram = s.ram := writeResult_ram s c w
@[simp] theorem complete_race : (complete c w s).race = s.race := writeResult_race s c w
@[simp] theorem complete_rstN : (complete c w s).rstN = s.rstN := writeResult_rstN s c w
@[simp] theorem complete_csN : (complete c w s).csN = s.csN := writeResult_csN s c w
@[simp] theorem complete_sclk : (complete c w s).sclk = s.sclk := writeResult_sclk s c w
@[simp] theorem complete_mosi : (complete c w s).mosi = s.mosi := writeResult_mosi s c w
@[simp] theorem complete_busy : (complete c w s).busy = false := rfl
@[simp] theorem complete_done : (complete c w s).done = true := rfl
@[simp] theorem complete_err : (complete c w s).err = s.err := writeResult_err s c w
@[simp] theorem complete_errCode : (complete c w s).errCode = s.errCode := writeResult_errCode s c w
@[simp] theorem complete_lifecycle : (complete c w s).lifecycle = (writeResult c w s).lifecycle := rfl
@[simp] theorem complete_configOk : (complete c w s).configOk = (writeResult c w s).configOk := rfl
@[simp] theorem complete_gdo0 : (complete c w s).gdo0 = s.gdo0 := writeResult_gdo0 s c w
@[simp] theorem complete_gdo2 : (complete c w s).gdo2 = s.gdo2 := writeResult_gdo2 s c w
@[simp] theorem complete_rdata : (complete c w s).rdata = (writeResult c w s).rdata := rfl
@[simp] theorem complete_rxCount : (complete c w s).rxCount = (writeResult c w s).rxCount := rfl
@[simp] theorem complete_rxOutcome : (complete c w s).rxOutcome = (writeResult c w s).rxOutcome := rfl
@[simp] theorem complete_rssiRaw : (complete c w s).rssiRaw = (writeResult c w s).rssiRaw := rfl
@[simp] theorem complete_mem : (complete c w s).mem = s.mem := writeResult_mem s c w
@[simp] theorem complete_seq : (complete c w s).seq = .idle := rfl
@[simp] theorem complete_cur : (complete c w s).cur = s.cur := writeResult_cur s c w
@[simp] theorem complete_dcnt : (complete c w s).dcnt = s.dcnt := writeResult_dcnt s c w
@[simp] theorem complete_hRdata : (complete c w s).hRdata = s.hRdata := writeResult_hRdata s c w
@[simp] theorem complete_hErr : (complete c w s).hErr = s.hErr := writeResult_hErr s c w
@[simp] theorem complete_trace : (complete c w s).trace = s.trace := writeResult_trace s c w
end

/-! ## `writeStatus` -/

section
variable (w : Word)
@[simp] theorem writeStatus_params : (writeStatus w s).params = s.params := by
  unfold writeStatus; cases w.getLsbD 1 <;> cases w.getLsbD 2 <;> rfl
@[simp] theorem writeStatus_agenda : (writeStatus w s).agenda = s.agenda := by
  unfold writeStatus; cases w.getLsbD 1 <;> cases w.getLsbD 2 <;> rfl
@[simp] theorem writeStatus_miso : (writeStatus w s).miso = s.miso := by
  unfold writeStatus; cases w.getLsbD 1 <;> cases w.getLsbD 2 <;> rfl
@[simp] theorem writeStatus_soLevel : (writeStatus w s).soLevel = s.soLevel := by
  unfold writeStatus; cases w.getLsbD 1 <;> cases w.getLsbD 2 <;> rfl
@[simp] theorem writeStatus_lines : (writeStatus w s).lines = s.lines := by
  unfold writeStatus; cases w.getLsbD 1 <;> cases w.getLsbD 2 <;> rfl
@[simp] theorem writeStatus_ram : (writeStatus w s).ram = s.ram := by
  unfold writeStatus; cases w.getLsbD 1 <;> cases w.getLsbD 2 <;> rfl
@[simp] theorem writeStatus_race : (writeStatus w s).race = s.race := by
  unfold writeStatus; cases w.getLsbD 1 <;> cases w.getLsbD 2 <;> rfl
@[simp] theorem writeStatus_rstN : (writeStatus w s).rstN = s.rstN := by
  unfold writeStatus; cases w.getLsbD 1 <;> cases w.getLsbD 2 <;> rfl
@[simp] theorem writeStatus_csN : (writeStatus w s).csN = s.csN := by
  unfold writeStatus; cases w.getLsbD 1 <;> cases w.getLsbD 2 <;> rfl
@[simp] theorem writeStatus_sclk : (writeStatus w s).sclk = s.sclk := by
  unfold writeStatus; cases w.getLsbD 1 <;> cases w.getLsbD 2 <;> rfl
@[simp] theorem writeStatus_mosi : (writeStatus w s).mosi = s.mosi := by
  unfold writeStatus; cases w.getLsbD 1 <;> cases w.getLsbD 2 <;> rfl
@[simp] theorem writeStatus_busy : (writeStatus w s).busy = s.busy := by
  unfold writeStatus; cases w.getLsbD 1 <;> cases w.getLsbD 2 <;> rfl
@[simp] theorem writeStatus_done : (writeStatus w s).done = if w.getLsbD 1 then false else s.done := by
  unfold writeStatus; cases w.getLsbD 1 <;> cases w.getLsbD 2 <;> rfl
@[simp] theorem writeStatus_err : (writeStatus w s).err = if w.getLsbD 2 then false else s.err := by
  unfold writeStatus; cases w.getLsbD 1 <;> cases w.getLsbD 2 <;> rfl
@[simp] theorem writeStatus_errCode : (writeStatus w s).errCode = if w.getLsbD 2 then .none else s.errCode := by
  unfold writeStatus; cases w.getLsbD 1 <;> cases w.getLsbD 2 <;> rfl
@[simp] theorem writeStatus_lifecycle : (writeStatus w s).lifecycle = s.lifecycle := by
  unfold writeStatus; cases w.getLsbD 1 <;> cases w.getLsbD 2 <;> rfl
@[simp] theorem writeStatus_configOk : (writeStatus w s).configOk = s.configOk := by
  unfold writeStatus; cases w.getLsbD 1 <;> cases w.getLsbD 2 <;> rfl
@[simp] theorem writeStatus_gdo0 : (writeStatus w s).gdo0 = s.gdo0 := by
  unfold writeStatus; cases w.getLsbD 1 <;> cases w.getLsbD 2 <;> rfl
@[simp] theorem writeStatus_gdo2 : (writeStatus w s).gdo2 = s.gdo2 := by
  unfold writeStatus; cases w.getLsbD 1 <;> cases w.getLsbD 2 <;> rfl
@[simp] theorem writeStatus_rdata : (writeStatus w s).rdata = s.rdata := by
  unfold writeStatus; cases w.getLsbD 1 <;> cases w.getLsbD 2 <;> rfl
@[simp] theorem writeStatus_rxCount : (writeStatus w s).rxCount = s.rxCount := by
  unfold writeStatus; cases w.getLsbD 1 <;> cases w.getLsbD 2 <;> rfl
@[simp] theorem writeStatus_rxOutcome : (writeStatus w s).rxOutcome = s.rxOutcome := by
  unfold writeStatus; cases w.getLsbD 1 <;> cases w.getLsbD 2 <;> rfl
@[simp] theorem writeStatus_rssiRaw : (writeStatus w s).rssiRaw = s.rssiRaw := by
  unfold writeStatus; cases w.getLsbD 1 <;> cases w.getLsbD 2 <;> rfl
@[simp] theorem writeStatus_mem : (writeStatus w s).mem = s.mem := by
  unfold writeStatus; cases w.getLsbD 1 <;> cases w.getLsbD 2 <;> rfl
@[simp] theorem writeStatus_seq : (writeStatus w s).seq = s.seq := by
  unfold writeStatus; cases w.getLsbD 1 <;> cases w.getLsbD 2 <;> rfl
@[simp] theorem writeStatus_cur : (writeStatus w s).cur = s.cur := by
  unfold writeStatus; cases w.getLsbD 1 <;> cases w.getLsbD 2 <;> rfl
@[simp] theorem writeStatus_dcnt : (writeStatus w s).dcnt = s.dcnt := by
  unfold writeStatus; cases w.getLsbD 1 <;> cases w.getLsbD 2 <;> rfl
@[simp] theorem writeStatus_hRdata : (writeStatus w s).hRdata = s.hRdata := by
  unfold writeStatus; cases w.getLsbD 1 <;> cases w.getLsbD 2 <;> rfl
@[simp] theorem writeStatus_hErr : (writeStatus w s).hErr = s.hErr := by
  unfold writeStatus; cases w.getLsbD 1 <;> cases w.getLsbD 2 <;> rfl
@[simp] theorem writeStatus_trace : (writeStatus w s).trace = s.trace := by
  unfold writeStatus; cases w.getLsbD 1 <;> cases w.getLsbD 2 <;> rfl
end

/-! ## `resetRegisters` -/

@[simp] theorem resetRegisters_params : (resetRegisters s).params = s.params := rfl
@[simp] theorem resetRegisters_agenda : (resetRegisters s).agenda = s.agenda := rfl
@[simp] theorem resetRegisters_miso : (resetRegisters s).miso = s.miso := rfl
@[simp] theorem resetRegisters_soLevel : (resetRegisters s).soLevel = s.soLevel := rfl
@[simp] theorem resetRegisters_lines : (resetRegisters s).lines = s.lines := rfl
@[simp] theorem resetRegisters_ram : (resetRegisters s).ram = s.ram := rfl
@[simp] theorem resetRegisters_race : (resetRegisters s).race = s.race := rfl
@[simp] theorem resetRegisters_rstN : (resetRegisters s).rstN = false := rfl
@[simp] theorem resetRegisters_csN : (resetRegisters s).csN = State.reset.csN := rfl
@[simp] theorem resetRegisters_sclk : (resetRegisters s).sclk = State.reset.sclk := rfl
@[simp] theorem resetRegisters_mosi : (resetRegisters s).mosi = State.reset.mosi := rfl
@[simp] theorem resetRegisters_busy : (resetRegisters s).busy = State.reset.busy := rfl
@[simp] theorem resetRegisters_done : (resetRegisters s).done = State.reset.done := rfl
@[simp] theorem resetRegisters_err : (resetRegisters s).err = State.reset.err := rfl
@[simp] theorem resetRegisters_errCode : (resetRegisters s).errCode = State.reset.errCode := rfl
@[simp] theorem resetRegisters_lifecycle : (resetRegisters s).lifecycle = State.reset.lifecycle := rfl
@[simp] theorem resetRegisters_configOk : (resetRegisters s).configOk = State.reset.configOk := rfl
@[simp] theorem resetRegisters_gdo0 : (resetRegisters s).gdo0 = State.reset.gdo0 := rfl
@[simp] theorem resetRegisters_gdo2 : (resetRegisters s).gdo2 = State.reset.gdo2 := rfl
@[simp] theorem resetRegisters_rdata : (resetRegisters s).rdata = State.reset.rdata := rfl
@[simp] theorem resetRegisters_rxCount : (resetRegisters s).rxCount = State.reset.rxCount := rfl
@[simp] theorem resetRegisters_rxOutcome : (resetRegisters s).rxOutcome = State.reset.rxOutcome := rfl
@[simp] theorem resetRegisters_rssiRaw : (resetRegisters s).rssiRaw = State.reset.rssiRaw := rfl
@[simp] theorem resetRegisters_mem : (resetRegisters s).mem = State.reset.mem := rfl
@[simp] theorem resetRegisters_seq : (resetRegisters s).seq = State.reset.seq := rfl
@[simp] theorem resetRegisters_cur : (resetRegisters s).cur = State.reset.cur := rfl
@[simp] theorem resetRegisters_dcnt : (resetRegisters s).dcnt = State.reset.dcnt := rfl
@[simp] theorem resetRegisters_hRdata : (resetRegisters s).hRdata = State.reset.hRdata := rfl
@[simp] theorem resetRegisters_hErr : (resetRegisters s).hErr = State.reset.hErr := rfl
@[simp] theorem resetRegisters_trace : (resetRegisters s).trace = s.trace := rfl

/-! ## `enterReset` -/

variable (seen : Fin 24)

@[simp] theorem enterReset_params : (enterReset seen s).params = s.params := rfl
@[simp] theorem enterReset_agenda : (enterReset seen s).agenda = s.agenda := rfl
@[simp] theorem enterReset_miso : (enterReset seen s).miso = s.miso.skip (cutExchange seen s).length := rfl
@[simp] theorem enterReset_soLevel : (enterReset seen s).soLevel = s.soLevel := rfl
@[simp] theorem enterReset_lines : (enterReset seen s).lines = s.lines := rfl
@[simp] theorem enterReset_ram : (enterReset seen s).ram = s.ram := rfl
@[simp] theorem enterReset_race : (enterReset seen s).race = s.race := rfl
@[simp] theorem enterReset_rstN : (enterReset seen s).rstN = false := rfl
@[simp] theorem enterReset_csN : (enterReset seen s).csN = State.reset.csN := rfl
@[simp] theorem enterReset_sclk : (enterReset seen s).sclk = State.reset.sclk := rfl
@[simp] theorem enterReset_mosi : (enterReset seen s).mosi = State.reset.mosi := rfl
@[simp] theorem enterReset_busy : (enterReset seen s).busy = State.reset.busy := rfl
@[simp] theorem enterReset_done : (enterReset seen s).done = State.reset.done := rfl
@[simp] theorem enterReset_err : (enterReset seen s).err = State.reset.err := rfl
@[simp] theorem enterReset_errCode : (enterReset seen s).errCode = State.reset.errCode := rfl
@[simp] theorem enterReset_lifecycle : (enterReset seen s).lifecycle = State.reset.lifecycle := rfl
@[simp] theorem enterReset_configOk : (enterReset seen s).configOk = State.reset.configOk := rfl
@[simp] theorem enterReset_gdo0 : (enterReset seen s).gdo0 = State.reset.gdo0 := rfl
@[simp] theorem enterReset_gdo2 : (enterReset seen s).gdo2 = State.reset.gdo2 := rfl
@[simp] theorem enterReset_rdata : (enterReset seen s).rdata = State.reset.rdata := rfl
@[simp] theorem enterReset_rxCount : (enterReset seen s).rxCount = State.reset.rxCount := rfl
@[simp] theorem enterReset_rxOutcome : (enterReset seen s).rxOutcome = State.reset.rxOutcome := rfl
@[simp] theorem enterReset_rssiRaw : (enterReset seen s).rssiRaw = State.reset.rssiRaw := rfl
@[simp] theorem enterReset_mem : (enterReset seen s).mem = State.reset.mem := rfl
@[simp] theorem enterReset_seq : (enterReset seen s).seq = State.reset.seq := rfl
@[simp] theorem enterReset_cur : (enterReset seen s).cur = State.reset.cur := rfl
@[simp] theorem enterReset_dcnt : (enterReset seen s).dcnt = State.reset.dcnt := rfl
@[simp] theorem enterReset_hRdata : (enterReset seen s).hRdata = State.reset.hRdata := rfl
@[simp] theorem enterReset_hErr : (enterReset seen s).hErr = State.reset.hErr := rfl
@[simp] theorem enterReset_trace : (enterReset seen s).trace = s.trace ++ cutExchange seen s ++ [.resetFall] := rfl

end Sys2Proof.Machine
end

