-- ==== Sys2Proof/Laws/Memory.lean ====
section
/-! SUPPORT. The buffer memory: a read after a write, a write leaves every other address alone, and every memory operation keeps
the canonical form. -/

namespace Sys2Proof.Machine

theorem memGet_memSet_same (m : Memory) (a : Nat) (b : Byte) : memGet (memSet m a b) a = some b := by
  induction m with
  | nil => simp [memSet, memGet]
  | cons c rest ih =>
    obtain ⟨k, v⟩ := c
    unfold memSet
    split
    · simp [memGet]
    · split
      · simp [memGet]
      · rename_i h
        have hne : (a == k) = false := by simpa using h
        simpa [memGet, List.lookup_cons, hne] using ih

theorem memGet_memSet_other (m : Memory) (a a' : Nat) (b : Byte) (h : a' ≠ a) :
    memGet (memSet m a b) a' = memGet m a' := by
  have hne : (a' == a) = false := by simpa using h
  induction m with
  | nil => simp [memSet, memGet, List.lookup_cons, hne]
  | cons c rest ih =>
    obtain ⟨k, v⟩ := c
    unfold memSet
    split
    · simp [memGet, List.lookup_cons, hne]
    · split
      · rename_i h'
        subst h'
        simp [memGet, List.lookup_cons, hne]
      · simp only [memGet, List.lookup_cons] at ih ⊢
        rw [ih]

theorem memGet_memSet (m : Memory) (a a' : Nat) (b : Byte) :
    memGet (memSet m a b) a' = if a' = a then some b else memGet m a' := by
  split
  · subst a'
    exact memGet_memSet_same m a b
  · exact memGet_memSet_other m a a' b ‹_›

theorem mem_memSet {m : Memory} {a : Nat} {b : Byte} {c : Host.Cell} (h : c ∈ memSet m a b) : c = (a, b) ∨ c ∈ m := by
  induction m with
  | nil => simpa [memSet] using h
  | cons d rest ih =>
    unfold memSet at h
    split at h
    · simpa using h
    · split at h
      · rcases List.mem_cons.mp h with h | h
        · exact .inl h
        · exact .inr (List.mem_cons_of_mem _ h)
      · rcases List.mem_cons.mp h with h | h
        · exact .inr (h ▸ List.mem_cons_self)
        · rcases ih h with h | h
          · exact .inl h
          · exact .inr (List.mem_cons_of_mem _ h)

/-- A write inside the buffers keeps the canonical form. -/
theorem memSet_wf {m : Memory} {a : Nat} {b : Byte} (hm : Memory.wf m) (ha : 0x40 ≤ a ∧ a < 0xC0) :
    Memory.wf (memSet m a b) := by
  refine ⟨?_, fun c hc => ?_⟩
  · obtain ⟨hs, -⟩ := hm
    induction m with
    | nil => simp [memSet]
    | cons c rest ih =>
      obtain ⟨hc, hr⟩ := List.pairwise_cons.mp hs
      unfold memSet
      split
      · refine List.pairwise_cons.mpr ⟨fun d hd => ?_, hs⟩
        rcases List.mem_cons.mp hd with rfl | hd
        · assumption
        · exact lt_trans ‹_› (hc d hd)
      · split
        · rename_i h
          exact List.pairwise_cons.mpr ⟨fun d hd => h ▸ hc d hd, hr⟩
        · refine List.pairwise_cons.mpr ⟨fun d hd => ?_, ih hr⟩
          rcases mem_memSet hd with rfl | hd
          · simp only
            omega
          · exact hc d hd
  · rcases mem_memSet hc with rfl | hc
    · exact ha
    · exact hm.2 c hc

/-- A host write of a TXBUF word keeps the canonical form. -/
theorem storeWord_wf {m : Memory} {a : Nat} (w : Word) (hm : Memory.wf m) (ha : 0x40 ≤ a ∧ a + 3 < 0xC0) :
    Memory.wf (storeWord m a w) :=
  memSet_wf (memSet_wf (memSet_wf (memSet_wf hm (by omega)) (by omega)) (by omega)) (by omega)

/-- What a host write of a TXBUF word leaves at each address: the word's bytes, little-endian, and elsewhere what stood. -/
theorem memGet_storeWord (m : Memory) (a a' : Nat) (w : Word) :
    memGet (storeWord m a w) a' =
      if a' = a then some (w.extractLsb' 0 8)
      else if a' = a + 1 then some (w.extractLsb' 8 8)
      else if a' = a + 2 then some (w.extractLsb' 16 8)
      else if a' = a + 3 then some (w.extractLsb' 24 8)
      else memGet m a' := by
  simp only [storeWord, memGet_memSet]
  split_ifs <;> first | rfl | omega

/-- The memory after reset has the canonical form. -/
theorem reset_mem_wf : Memory.wf State.reset.mem := by decide

end Sys2Proof.Machine
end

