-- ==== Sys2Proof/Laws/Run.lean ====
section
/-! SUPPORT. What a run of the sequencer does: one lemma per kind of step, one for a whole transaction, and the composition of
runs. The lemmas about commands cite these and do not unfold the sequencer. -/

namespace Sys2Proof.Machine

/-! ## Feeds -/

theorem Feed.skip_skip {α : Type} (f : Feed α) (j k : Nat) : (f.skip j).skip k = f.skip (j + k) := by
  simp [Feed.skip, Nat.add_assoc]

@[simp] theorem Feed.skip_zero {α : Type} (f : Feed α) : f.skip 0 = f := by simp [Feed.skip]

theorem Feed.peek_skip {α : Type} (free : Nat → α) (f : Feed α) (j k : Nat) :
    (f.skip j).peek free k = f.peek free (j + k) := by
  simp [Feed.peek, Feed.skip, Nat.add_assoc]

theorem replies_succ (s : State) (k n : Nat) : s.replies k (n + 1) = s.misoAt k :: s.replies (k + 1) n := by
  simp [State.replies, List.range_succ_eq_map, Function.comp_def, Nat.add_assoc, Nat.add_comm 1]

/-! ## Passing from one state to another -/

/-- From `s` to `t` the sequencer only put the events `evs` on the bus, drew `n` MISO bytes and `m` MISO levels, and let the
clock run; SEQ, CS_N, MOSI and the memory are said separately. -/
structure Passes (s t : State) (evs : List BusEvent) (n m : Nat) : Prop where
  trace : t.trace = s.trace ++ evs
  miso : t.miso = s.miso.skip n
  soLevel : t.soLevel = s.soLevel.skip m
  params : t.params = s.params
  agenda : t.agenda = s.agenda
  ram : t.ram = s.ram
  race : t.race = s.race
  rstN : t.rstN = s.rstN
  sclk : t.sclk = s.sclk
  busy : t.busy = s.busy
  done : t.done = s.done
  err : t.err = s.err
  errCode : t.errCode = s.errCode
  lifecycle : t.lifecycle = s.lifecycle
  configOk : t.configOk = s.configOk
  rdata : t.rdata = s.rdata
  rxCount : t.rxCount = s.rxCount
  rxOutcome : t.rxOutcome = s.rxOutcome
  rssiRaw : t.rssiRaw = s.rssiRaw
  cur : t.cur = s.cur
  hRdata : t.hRdata = s.hRdata
  hErr : t.hErr = s.hErr

theorem Passes.refl (s : State) : Passes s s [] 0 0 := by constructor <;> simp

theorem Passes.trans {s t u : State} {e₁ e₂ : List BusEvent} {n₁ n₂ m₁ m₂ : Nat} (h₁ : Passes s t e₁ n₁ m₁)
    (h₂ : Passes t u e₂ n₂ m₂) : Passes s u (e₁ ++ e₂) (n₁ + n₂) (m₁ + m₂) := by
  constructor
  · rw [h₂.trace, h₁.trace, List.append_assoc]
  · rw [h₂.miso, h₁.miso, Feed.skip_skip]
  · rw [h₂.soLevel, h₁.soLevel, Feed.skip_skip]
  · rw [h₂.params, h₁.params]
  · rw [h₂.agenda, h₁.agenda]
  · rw [h₂.ram, h₁.ram]
  · rw [h₂.race, h₁.race]
  · rw [h₂.rstN, h₁.rstN]
  · rw [h₂.sclk, h₁.sclk]
  · rw [h₂.busy, h₁.busy]
  · rw [h₂.done, h₁.done]
  · rw [h₂.err, h₁.err]
  · rw [h₂.errCode, h₁.errCode]
  · rw [h₂.lifecycle, h₁.lifecycle]
  · rw [h₂.configOk, h₁.configOk]
  · rw [h₂.rdata, h₁.rdata]
  · rw [h₂.rxCount, h₁.rxCount]
  · rw [h₂.rxOutcome, h₁.rxOutcome]
  · rw [h₂.rssiRaw, h₁.rssiRaw]
  · rw [h₂.cur, h₁.cur]
  · rw [h₂.hRdata, h₁.hRdata]
  · rw [h₂.hErr, h₁.hErr]

theorem Passes.misoAt {s t : State} {evs : List BusEvent} {n m : Nat} (h : Passes s t evs n m) (k : Nat) :
    t.misoAt k = s.misoAt (n + k) := by
  simp [State.misoAt, h.miso, Feed.peek_skip]

theorem Passes.soAt {s t : State} {evs : List BusEvent} {n m : Nat} (h : Passes s t evs n m) (k : Nat) :
    t.soAt k = s.soAt (m + k) := by
  simp [State.soAt, h.soLevel, Feed.peek_skip]

theorem Passes.replies {s t : State} {evs : List BusEvent} {n m : Nat} (h : Passes s t evs n m) (k c : Nat) :
    t.replies k c = s.replies (n + k) c := by
  simp only [State.replies, h.misoAt, Nat.add_assoc]

/-! ## Reaching a state by a number of steps -/

/-- In exactly `c` sequencer steps, with none of them Idle, the run goes from `s` to `t`. -/
def Reaches (c : Nat) (s t : State) : Prop := ∀ fuel, runSeq (c + fuel) s = runSeq fuel t

theorem Reaches.refl (s : State) : Reaches 0 s s := fun fuel => by simp

theorem Reaches.trans {c d : Nat} {s t u : State} (h₁ : Reaches c s t) (h₂ : Reaches d t u) : Reaches (c + d) s u :=
  fun fuel => by rw [Nat.add_assoc, h₁, h₂]

theorem runSeq_idle {s : State} (h : s.seq = .idle) (fuel : Nat) : runSeq fuel s = s := by
  cases fuel <;> simp [runSeq, h]

theorem Reaches.step {s : State} {op : Operation} {m : MicroOp} {rest : List MicroOp} {w : Work}
    (h : s.seq = .run op (m :: rest) w) : Reaches 1 s (microStep op m rest w (clockEdge s)) := fun fuel => by
  rw [Nat.add_comm]
  simp only [runSeq, h, seqAdvance]

/-- A run that reaches an Idle state within the fuel ends there. -/
theorem Reaches.runSeq_eq {c fuel : Nat} {s t : State} (h : Reaches c s t) (ht : t.seq = .idle) (hc : c ≤ fuel) :
    runSeq fuel s = t := by
  obtain ⟨d, rfl⟩ := Nat.exists_eq_add_of_le hc
  rw [h, runSeq_idle ht]

/-- The MISO-low wait ends at a low sample (R97). -/
theorem microStep_waitSo_low (op : Operation) (rest : List MicroOp) (w : Work) {s : State} (h : s.soAt 0 = false) :
    microStep op .waitSo rest w s = { s with soLevel := s.soLevel.skip 1, seq := .run op rest w } := by
  simp [microStep, h]

/-- The MISO-low wait holds at a high sample: the position stays (R97). -/
theorem microStep_waitSo_high (op : Operation) (rest : List MicroOp) (w : Work) {s : State} (h : s.soAt 0 = true) :
    microStep op .waitSo rest w s = { s with soLevel := s.soLevel.skip 1 } := by
  simp [microStep, h]

/-! ## The exchanges of a transaction -/

/-- The byte an exchange step sends. -/
def sentByte (s : State) : MicroOp → Option Byte
  | .xfer b => some b
  | .xferTx i => some (txByte s i)
  | _ => none

/-- The last byte received after `n` exchanges, the one before them being `b`. -/
def lastReply (s : State) (b : Byte) : Nat → Byte
  | 0 => b
  | n + 1 => s.misoAt n

theorem sentByte_congr {s t : State} (hm : t.mem = s.mem) (hr : t.ram = s.ram) (x : MicroOp) : sentByte t x = sentByte s x := by
  cases x <;> simp [sentByte, txByte, hm, hr]

/-- Exchanges one after another: the bytes they send, and the transceiver's answers. -/
theorem reaches_exchanges (op : Operation) (rest : List MicroOp) (xs : List MicroOp) (bs : List Byte) (s : State) (w : Work)
    (hx : xs.map (sentByte s) = bs.map some) (hs : s.seq = .run op (xs ++ rest) w) :
    ∃ t, Reaches xs.length s t ∧ t.seq = .run op rest { w with last := lastReply s w.last xs.length } ∧ t.csN = s.csN ∧
      t.mem = s.mem ∧ Passes s t (List.zipWith .xfer bs (s.replies 0 bs.length)) xs.length 0 := by
  induction xs generalizing s w bs with
  | nil =>
    obtain rfl : bs = [] := by simpa using hx.symm
    exact ⟨s, Reaches.refl s, by simpa [lastReply] using hs, rfl, rfl, by simpa using Passes.refl s⟩
  | cons x xs ih =>
    obtain _ | ⟨b, bs⟩ := bs
    · simp at hx
    simp only [List.map_cons, List.cons.injEq] at hx
    obtain ⟨hb, hxs⟩ := hx
    have hstep := Reaches.step (s := s) (op := op) (m := x) (rest := xs ++ rest) (w := w) (by simpa using hs)
    have hone : ∃ t, microStep op x (xs ++ rest) w (clockEdge s) = t ∧
        t.seq = .run op (xs ++ rest) { w with last := s.misoAt 0 } ∧ t.csN = s.csN ∧ t.mem = s.mem ∧
        Passes s t [.xfer b (s.misoAt 0)] 1 0 := by
      refine ⟨_, rfl, ?_⟩
      cases x <;> simp only [sentByte, Option.some.injEq, reduceCtorEq] at hb
      · subst hb
        refine ⟨rfl, rfl, rfl, ?_⟩
        constructor <;> simp [microStep, State.misoAt]
      · have hb' : txByte (clockEdge s) _ = b := hb
        refine ⟨rfl, rfl, rfl, ?_⟩
        constructor <;> simp [microStep, State.misoAt, hb']
    obtain ⟨t, ht, htseq, htcs, htmem, htp⟩ := hone
    rw [ht] at hstep
    obtain ⟨u, hu, huseq, hucs, humem, hup⟩ := ih bs t { w with last := s.misoAt 0 }
      (by rw [← hxs]; exact List.map_congr_left fun y _ => sentByte_congr htmem htp.ram y) htseq
    refine ⟨u, ?_, ?_, hucs.trans htcs, humem.trans htmem, ?_⟩
    · simpa [Nat.add_comm] using hstep.trans hu
    · rw [huseq]
      congr 2
      cases xs with
      | nil => simp [lastReply]
      | cons y ys => simp [lastReply, htp.misoAt, Nat.add_comm]
    · have hz : List.zipWith BusEvent.xfer (b :: bs) (s.replies 0 (b :: bs).length) =
          [.xfer b (s.misoAt 0)] ++ List.zipWith BusEvent.xfer bs (t.replies 0 bs.length) := by
        rw [htp.replies, List.length_cons, replies_succ]
        rfl
      rw [hz, List.length_cons, Nat.add_comm]
      simpa using htp.trans hup

/-- The number of steps of a transaction with `n` exchanges. -/
def txnCost (p : Params) (n : Nat) : Nat := n + 2 + (if p.waitSoLow then 1 else 0)

/-- The number of MISO levels a transaction samples when the first is low. -/
def txnWaits (p : Params) : Nat := if p.waitSoLow then 1 else 0

/-- A whole transaction (R95) when its MISO-low wait does not hold. -/
theorem reaches_txn (op : Operation) (rest : List MicroOp) (xs : List MicroOp) (bs : List Byte) (s : State) (w : Work)
    (hx : xs.map (sentByte s) = bs.map some) (hs : s.seq = .run op (spiTxn s.params xs ++ rest) w)
    (hso : s.params.waitSoLow = false ∨ s.soAt 0 = false) :
    ∃ t, Reaches (txnCost s.params bs.length) s t ∧
      t.seq = .run op rest { w with last := lastReply s w.last bs.length } ∧ t.csN = true ∧ t.mem = s.mem ∧
      Passes s t (txnEvents bs (s.replies 0 bs.length)) bs.length (txnWaits s.params) := by
  have hlen : xs.length = bs.length := by simpa using congrArg List.length hx
  -- chip-select falls, and the wait, if there is one, ends at once
  have hopen : ∃ c t, c = 1 + txnWaits s.params ∧ Reaches c s t ∧ t.seq = .run op (xs ++ (.csHigh :: rest)) w ∧
      t.mem = s.mem ∧ Passes s t [.csFall] 0 (txnWaits s.params) := by
    have h1 := Reaches.step (s := s) (op := op) (m := .csLow) (w := w)
      (rest := (if s.params.waitSoLow then [.waitSo] else []) ++ xs ++ .csHigh :: rest) (by simp [hs, spiTxn])
    by_cases hw : s.params.waitSoLow = true
    · have hlow : s.soAt 0 = false := by simpa [hw] using hso
      have h2 := Reaches.step (s := microStep op .csLow ([.waitSo] ++ xs ++ .csHigh :: rest) w (clockEdge s)) (op := op)
        (m := .waitSo) (w := w) (rest := xs ++ .csHigh :: rest) (by simp [microStep])
      simp only [hw, if_true] at h1
      refine ⟨2, _, by simp [txnWaits, hw], h1.trans h2, ?_⟩
      rw [microStep_waitSo_low op (xs ++ .csHigh :: rest) w (s := clockEdge (microStep op .csLow
        ([MicroOp.waitSo] ++ xs ++ .csHigh :: rest) w (clockEdge s))) hlow]
      rw [show txnWaits s.params = 1 by simp [txnWaits, hw]]
      refine ⟨rfl, rfl, ?_⟩
      constructor <;> simp [microStep]
    · simp only [hw] at h1
      refine ⟨1, _, by simp [txnWaits, hw], h1, by simp [microStep], by simp [microStep], ?_⟩
      simp only [txnWaits, hw]
      constructor <;> simp [microStep]
  obtain ⟨c, t, rfl, hst, htseq, htmem, htp⟩ := hopen
  obtain ⟨u, htu, huseq, -, humem, hup⟩ := reaches_exchanges op (.csHigh :: rest) xs bs t w
    (by rw [← hx]; exact List.map_congr_left fun y _ => sentByte_congr htmem htp.ram y) htseq
  have h3 := Reaches.step huseq
  refine ⟨microStep op .csHigh rest { w with last := lastReply t w.last xs.length } (clockEdge u), ?_, ?_, ?_, ?_, ?_⟩
  · have h := (hst.trans htu).trans h3
    have hc : 1 + txnWaits s.params + xs.length + 1 = txnCost s.params bs.length := by
      simp only [txnCost, txnWaits, hlen]
      omega
    rwa [hc] at h
  · simp only [microStep]
    congr 2
    rw [hlen]
    cases bs.length <;> simp [lastReply, htp.misoAt]
  · simp [microStep]
  · simp [microStep, humem, htmem]
  · have h4 : Passes u (microStep op .csHigh rest { w with last := lastReply t w.last xs.length } (clockEdge u)) [.csRise] 0 0 := by
      constructor <;> simp [microStep]
    have h := (htp.trans hup).trans h4
    rw [htp.replies] at h
    simpa [txnEvents, hlen] using h

/-! ## Transactions one after another -/

theorem busOf_append (s : State) (k : Nat) (xs ys : List (List Byte)) :
    s.busOf k (xs ++ ys) = s.busOf k xs ++ s.busOf (k + (xs.map List.length).sum) ys := by
  induction xs generalizing k with
  | nil => simp [State.busOf]
  | cons x xs ih => simp [State.busOf, ih, Nat.add_assoc]

theorem Passes.busOf {s t : State} {evs : List BusEvent} {n m : Nat} (h : Passes s t evs n m) (k : Nat)
    (txns : List (List Byte)) : t.busOf k txns = s.busOf (n + k) txns := by
  induction txns generalizing k with
  | nil => rfl
  | cons x xs ih => simp only [State.busOf, h.replies, ih, Nat.add_assoc]

theorem SoFree.mono {s : State} {n m : Nat} (h : s.SoFree n) (hm : m ≤ n) : s.SoFree m :=
  h.imp id fun h j hj => h j (by omega)

theorem Passes.soFree {s t : State} {evs : List BusEvent} {n k j : Nat} (h : Passes s t evs n (k * txnWaits s.params))
    (hs : s.SoFree (k + j)) : t.SoFree j := by
  rcases hs with hs | hs
  · exact .inl (by rw [h.params, hs])
  · by_cases hw : s.params.waitSoLow = true
    · refine .inr fun i hi => ?_
      rw [h.soAt]
      exact hs _ (by simp only [txnWaits, hw, if_true]; omega)
    · exact .inl (by rw [h.params]; simpa using hw)

/-- Transactions one after another (R95, R104) when no MISO-low wait holds. -/
theorem reaches_txns (op : Operation) (rest : List MicroOp) (txs : List (List MicroOp)) (bss : List (List Byte)) (s : State)
    (w : Work) (hx : txs.map (List.map (sentByte s)) = bss.map (List.map some))
    (hs : s.seq = .run op ((txs.map (spiTxn s.params)).flatten ++ rest) w) (hso : s.SoFree bss.length) :
    ∃ c t, c ≤ 3 * bss.length + (bss.map List.length).sum ∧ Reaches c s t ∧
      t.seq = .run op rest { w with last := lastReply s w.last (bss.map List.length).sum } ∧
      (t.csN = if bss = [] then s.csN else true) ∧ t.mem = s.mem ∧
      Passes s t (s.busOf 0 bss) (bss.map List.length).sum (bss.length * txnWaits s.params) := by
  induction txs generalizing s w bss with
  | nil =>
    obtain rfl : bss = [] := by simpa using hx.symm
    exact ⟨0, s, by simp, Reaches.refl s, by simpa [lastReply] using hs, rfl, rfl,
      by simpa [State.busOf] using Passes.refl s⟩
  | cons x txs ih =>
    obtain _ | ⟨bs, bss⟩ := bss
    · simp at hx
    simp only [List.map_cons, List.cons.injEq] at hx
    obtain ⟨hb, hxs⟩ := hx
    obtain ⟨t, hst, htseq, htcs, htmem, htp⟩ := reaches_txn op ((txs.map (spiTxn s.params)).flatten ++ rest) x bs s w hb
      (by simpa using hs) (hso.imp id fun h => h 0 (by simp))
    obtain ⟨c, u, hc, htu, huseq, hucs, humem, hup⟩ := ih bss t _
      (by
        rw [← hxs]
        exact List.map_congr_left fun ys _ => List.map_congr_left fun y _ => sentByte_congr htmem htp.ram y)
      (by rw [htseq, htp.params])
      (Passes.soFree (k := 1) (by simpa using htp) (by simpa [Nat.add_comm] using hso))
    refine ⟨txnCost s.params bs.length + c, u, ?_, hst.trans htu, ?_, ?_, humem.trans htmem, ?_⟩
    · simp only [txnCost, List.length_cons, List.map_cons, List.sum_cons]
      split <;> omega
    · rw [huseq]
      congr 2
      simp only [List.map_cons, List.sum_cons]
      cases hn : (bss.map List.length).sum with
      | zero => simp [lastReply]
      | succ n => simp [lastReply, htp.misoAt]
    · rw [hucs]
      split <;> simp [htcs]
    · have h := htp.trans hup
      rw [htp.busOf, htp.params] at h
      have hm : txnWaits s.params + bss.length * txnWaits s.params = (bss.length + 1) * txnWaits s.params := by ring
      simpa [State.busOf, hm] using h

/-- A delay (R285): its two steps put its two events on record, with chip-select and the memory as they were. -/
theorem reaches_delay (op : Operation) (rest : List MicroOp) (d : DelayName) (s : State) (w : Work)
    (hs : s.seq = .run op (.delayStart d :: .delayEnd d :: rest) w) :
    ∃ t, Reaches 2 s t ∧ t.seq = .run op rest w ∧ t.csN = s.csN ∧ t.mem = s.mem ∧
      Passes s t [.delayStart d, .delayEnd d] 0 0 := by
  have h1 := Reaches.step hs
  have h2 := Reaches.step (s := microStep op (.delayStart d) (.delayEnd d :: rest) w (clockEdge s)) (op := op)
    (m := .delayEnd d) (rest := rest) (w := w) rfl
  refine ⟨_, h1.trans h2, rfl, rfl, rfl, ?_⟩
  constructor <;> simp [microStep]

/-- The last step of a command (R42): the state before it, with the results written, BUSY cleared and DONE set. -/
theorem reaches_complete (op : Operation) (c : Completion) (s : State) (w : Work) (hs : s.seq = .run op [.complete c] w) :
    Reaches 1 s (complete c w (clockEdge s)) := by
  simpa [microStep] using Reaches.step hs

/-! ## Commands -/

/-- A command issued when the host may, whose operands are in range and whose first step does not stop, is its whole run from
the accepted state. -/
theorem runCommand_eq_run {i : Instr} {body : State → List MicroOp} {s : State} (h : s.Ready) (hi : operandCheck i = none)
    (hg : seqStep (accept i body s) = .next (seqAdvance (accept i body s))) :
    runCommand i body s = .next (runSeq (runFuel + 1) (accept i body s)) := by
  obtain ⟨hr, hb⟩ := h
  simp [runCommand, hr, hb, hi, hg, runSeq]

/-- A first step that is no guard does not stop. -/
theorem seqStep_eq_next {s : State} {op : Operation} {m : MicroOp} {rest : List MicroOp} {w : Work}
    (hs : s.seq = .run op (m :: rest) w) (h1 : ∀ n, m ≠ .needTx n) (h2 : m ≠ .needTables) :
    seqStep s = .next (seqAdvance s) := by
  unfold seqStep
  rw [hs]
  cases m <;> simp_all

/-- A command whose run from the accepted state reaches an Idle state within the fuel answers that state. -/
theorem runCommand_of_reaches {i : Instr} {body : State → List MicroOp} {s t : State} {c : Nat} (h : s.Ready)
    (hi : operandCheck i = none) (hg : seqStep (accept i body s) = .next (seqAdvance (accept i body s)))
    (hr : Reaches c (accept i body s) t) (ht : t.seq = .idle) (hc : c ≤ runFuel + 1) : runCommand i body s = .next t := by
  rw [runCommand_eq_run h hi hg, hr.runSeq_eq ht hc]

end Sys2Proof.Machine
end

