-- ==== Sys2Proof/Laws/Commands.lean ====
section
/-! SUPPORT. What a whole command does, from the state it is issued in: the command whose body is a list of transactions and then
`Complete()`. -/

namespace Sys2Proof.Machine

/-- What holds of the state from which a command takes its last step: the command is captured, and since acceptance only bus
events, draws and clock edges have happened. -/
structure Ran (i : Instr) (s u : State) (evs : List BusEvent) (n : Nat) : Prop where
  trace : u.trace = s.trace ++ evs
  miso : u.miso = s.miso.skip n
  params : u.params = s.params
  agenda : u.agenda = s.agenda
  ram : u.ram = s.ram
  race : u.race = s.race
  rstN : u.rstN = s.rstN
  sclk : u.sclk = s.sclk
  err : u.err = s.err
  errCode : u.errCode = s.errCode
  lifecycle : u.lifecycle = if i.operation = .configure then .configuring else s.lifecycle
  configOk : u.configOk = if i.operation = .configure then false else s.configOk
  rdata : u.rdata = s.rdata
  rxCount : u.rxCount = s.rxCount
  rxOutcome : u.rxOutcome = s.rxOutcome
  rssiRaw : u.rssiRaw = s.rssiRaw
  cur : u.cur = i.fields
  hRdata : u.hRdata = s.hRdata
  hErr : u.hErr = s.hErr

/-- Passing on from the accepted state. -/
theorem Passes.ran {i : Instr} {body : State → List MicroOp} {s u : State} {evs : List BusEvent} {n m : Nat}
    (h : Passes (accept i body s) u evs n m) : Ran i s u evs n where
  trace := h.trace
  miso := h.miso
  params := h.params
  agenda := h.agenda
  ram := h.ram
  race := h.race
  rstN := h.rstN
  sclk := h.sclk
  err := h.err
  errCode := h.errCode
  lifecycle := h.lifecycle
  configOk := h.configOk
  rdata := h.rdata
  rxCount := h.rxCount
  rxOutcome := h.rxOutcome
  rssiRaw := h.rssiRaw
  cur := h.cur
  hRdata := h.hRdata
  hErr := h.hErr

@[simp] theorem accept_misoAt (i : Instr) (body : State → List MicroOp) (s : State) (k : Nat) :
    (accept i body s).misoAt k = s.misoAt k := rfl

@[simp] theorem accept_replies (i : Instr) (body : State → List MicroOp) (s : State) (k n : Nat) :
    (accept i body s).replies k n = s.replies k n := rfl

@[simp] theorem accept_soFree (i : Instr) (body : State → List MicroOp) (s : State) (n : Nat) :
    (accept i body s).SoFree n ↔ s.SoFree n := Iff.rfl

@[simp] theorem accept_busOf (i : Instr) (body : State → List MicroOp) (s : State) (k : Nat) (txns : List (List Byte)) :
    (accept i body s).busOf k txns = s.busOf k txns := by
  induction txns generalizing k with
  | nil => rfl
  | cons x xs ih => simp [State.busOf, ih]

@[simp] theorem accept_sentByte (i : Instr) (body : State → List MicroOp) (s : State) :
    sentByte (accept i body s) = sentByte s := funext fun x => sentByte_congr rfl rfl x

/-- A command that is the transactions `txs` and then `Complete()` (R95, R42): it answers the completed state of the state `u`
in which the transactions `bss` have been sent and nothing else has changed. -/
theorem runCommand_txns {i : Instr} {body : State → List MicroOp} {s : State} {c : Completion} (txs : List (List MicroOp))
    (bss : List (List Byte)) (h : s.Ready) (hi : operandCheck i = none)
    (hb : body (capture i s) = (txs.map (spiTxn s.params)).flatten ++ [.complete c]) (hne : bss ≠ [])
    (hx : txs.map (List.map (sentByte s)) = bss.map (List.map some)) (hso : s.SoFree bss.length)
    (hc : 3 * bss.length + (bss.map List.length).sum ≤ runFuel) :
    ∃ u w, runCommand i body s = .next (complete c w u) ∧ Ran i s u (s.busOf 0 bss) (bss.map List.length).sum ∧
      u.csN = true ∧ u.mem = s.mem ∧ w = { Work.start s.mem with last := lastReply s 0 (bss.map List.length).sum } := by
  have haseq : (accept i body s).seq = .run i.operation ((txs.map (spiTxn (accept i body s).params)).flatten ++ [.complete c])
      (Work.start s.mem) := by simp [hb]
  have hg : seqStep (accept i body s) = .next (seqAdvance (accept i body s)) := by
    cases txs with
    | nil => simp_all
    | cons x xs => exact seqStep_eq_next (m := .csLow) (by rw [haseq]; rfl) (by simp) (by simp)
  obtain ⟨n, u, hn, hr, huseq, hcs, hmem, hp⟩ :=
    reaches_txns i.operation [.complete c] txs bss (accept i body s) (Work.start s.mem)
      (by rw [accept_sentByte]; exact hx) haseq (by simpa)
  have hlast := reaches_complete i.operation c u _ huseq
  have hp' : Ran i s (clockEdge u) (s.busOf 0 bss) (bss.map List.length).sum := by
    have h' := hp.ran
    rw [accept_busOf] at h'
    exact { h' with }
  refine ⟨clockEdge u, _, runCommand_of_reaches h hi hg (hr.trans hlast) (by simp) (by omega), hp', ?_, ?_, rfl⟩
  · simpa [hne] using hcs
  · simpa using hmem

/-! ## Operands and payload bytes -/

/-- An index put into the A field is the index read back from it (R124). -/
theorem extract_setWidth_index (a : Index) : (BitVec.setWidth 8 a).extractLsb' 0 6 = a := by
  revert a
  decide

theorem txWritten_iff (s : State) (n : Nat) : txWritten s n = true ↔ s.TxWritten n := by
  simp [txWritten, State.TxWritten]

theorem txBytes_length (s : State) (n : Nat) : (s.txBytes n).length = n := by simp [State.txBytes]

/-- For written bytes, what a burst from TXBUF sends is the bytes of TXBUF (R107). -/
theorem sentByte_txBytes (s : State) (n : Nat) (h : s.TxWritten n) :
    ((List.range n).map MicroOp.xferTx).map (sentByte s) = (s.txBytes n).map some := by
  simp only [State.txBytes, List.map_map]
  refine List.map_congr_left fun i hi => ?_
  obtain ⟨b, hb⟩ := Option.isSome_iff_exists.mp (h i (List.mem_range.mp hi))
  simp [sentByte, txByte, hb]

/-! ## The checks before a command's first transaction -/

/-- WRITE_BURST's and TX's check of the bytes to be sent, when they are written (R312): one step that changes nothing but SEQ. -/
theorem guard_tx {i : Instr} {body : State → List MicroOp} {s : State} {n : Nat} {rest : List MicroOp}
    (hb : body (capture i s) = .needTx n :: rest) (hw : s.TxWritten n) :
    seqStep (accept i body s) = .next (seqAdvance (accept i body s)) ∧
    ∃ t, Reaches 1 (accept i body s) t ∧ t.seq = .run i.operation rest (Work.start s.mem) ∧ t.csN = s.csN ∧ t.mem = s.mem ∧
      Passes (accept i body s) t [] 0 0 := by
  have haseq : (accept i body s).seq = .run i.operation (.needTx n :: rest) (Work.start s.mem) := by simp [hb]
  refine ⟨?_, _, Reaches.step haseq, rfl, rfl, rfl, ?_⟩
  · unfold seqStep
    rw [haseq]
    have : txWritten (accept i body s) n = true := (txWritten_iff _ _).mpr hw
    simp [this]
  · constructor <;> simp [microStep]

/-- The same check when a byte is not written: the command faults (R312). -/
theorem guard_tx_fault {i : Instr} {body : State → List MicroOp} {s : State} {n : Nat} {rest : List MicroOp} (h : s.Ready)
    (hi : operandCheck i = none) (hb : body (capture i s) = .needTx n :: rest) (hw : ¬s.TxWritten n) :
    runCommand i body s = .fault .unwrittenTxByte := by
  obtain ⟨hr, hbusy⟩ := h
  have haseq : (accept i body s).seq = .run i.operation (.needTx n :: rest) (Work.start s.mem) := by simp [hb]
  have hf : txWritten (accept i body s) n = false := by
    rw [← Bool.not_eq_true, txWritten_iff]
    exact hw
  have hs : seqStep (accept i body s) = .fault .unwrittenTxByte := by
    unfold seqStep
    rw [haseq]
    simp [hf]
  simp [runCommand, hr, hbusy, hi, hs]

/-- CONFIGURE's check of its tables, when they meet R12: one step that changes nothing but SEQ. -/
theorem guard_tables {i : Instr} {body : State → List MicroOp} {s : State} {rest : List MicroOp}
    (hb : body (capture i s) = .needTables :: rest) (hp : s.params.profileLegal = true) (ht : s.params.patableLegal = true) :
    seqStep (accept i body s) = .next (seqAdvance (accept i body s)) ∧
    ∃ t, Reaches 1 (accept i body s) t ∧ t.seq = .run i.operation rest (Work.start s.mem) ∧ t.csN = s.csN ∧ t.mem = s.mem ∧
      Passes (accept i body s) t [] 0 0 := by
  have haseq : (accept i body s).seq = .run i.operation (.needTables :: rest) (Work.start s.mem) := by simp [hb]
  refine ⟨?_, _, Reaches.step haseq, rfl, rfl, rfl, ?_⟩
  · unfold seqStep
    rw [haseq]
    simp [hp, ht]
  · constructor <;> simp [microStep]

end Sys2Proof.Machine
end

