-- ==== Sys2Proof/Laws/Encoding.lean ====
section
/-! SUPPORT. Words and their fields: a word is read back from its fields, and fields from their word; the mask of each row keeps a
command's word. -/

namespace Sys2Proof

/-- Bit `k` of a word made of fields (R120). -/
theorem getLsbD_word (f : Fields) (k : Nat) :
    f.word.getLsbD k =
      if k < 4 then f.op.getLsbD k
      else if k < 8 then false
      else if k < 16 then f.a.getLsbD (k - 8)
      else if k < 24 then f.d.getLsbD (k - 16)
      else if k < 31 then f.n.getLsbD (k - 24)
      else false := by
  have h : f.word.getLsbD k =
      BitVec.getLsbD (w := 1 + 7 + 8 + 8 + 4 + 4) (0#1 ++ f.n ++ f.d ++ f.a ++ 0#4 ++ f.op) k := rfl
  rw [h]
  simp only [BitVec.getLsbD_append]
  split_ifs <;> first | omega | simp_all [Nat.sub_sub]

/-- The fields of the word of some fields are those fields (R120). -/
theorem fieldsOf_word (f : Fields) : fieldsOf f.word = f := by
  obtain ⟨op, a, d, n⟩ := f
  simp only [fieldsOf, Fields.mk.injEq]
  refine ⟨?_, ?_, ?_, ?_⟩ <;>
  · apply BitVec.eq_of_getLsbD_eq
    intro i hi
    rw [BitVec.getLsbD_extractLsb', getLsbD_word]
    interval_cases i <;> simp

/-- A word whose reserved bits are zero is the word of its fields (R120, R122). -/
theorem word_fieldsOf (w : Word) (h : w &&& 0x800000F0#32 = 0) : (fieldsOf w).word = w := by
  have hb : ∀ i, i < 32 → (w &&& 0x800000F0#32).getLsbD i = false := by
    intro i _
    rw [h]
    simp
  apply BitVec.eq_of_getLsbD_eq
  intro i hi
  have := hb i hi
  rw [getLsbD_word]
  interval_cases i <;> simp [fieldsOf] at this ⊢ <;> simp_all

/-- The word of a command, masked by its row of R122, is the row's match value. -/
theorem encode_and_mask (i : Instr) : ∃ r, rowOf i.fields.op = some r ∧ encode i &&& r.mask = r.value := by
  cases i <;> refine ⟨_, rfl, ?_⟩ <;>
  · apply BitVec.eq_of_getLsbD_eq
    intro k hk
    rw [BitVec.getLsbD_and, encode, getLsbD_word]
    interval_cases k <;> simp [Instr.fields]

/-- The command named by a command's fields is the command (R121, R124). -/
theorem instrOf_fields (i : Instr) : instrOf i.fields = some i := by
  have h : ∀ a : Index, (BitVec.setWidth 8 a).extractLsb' 0 6 = a := by decide
  cases i <;> simp [instrOf, Instr.fields, h]

/-- Decode's operand checks pass exactly the well-formed commands (R122, R123). -/
theorem operandCheck_eq_none (i : Instr) : operandCheck i = none ↔ i.wf = true := by
  cases i with
  | strobe opcode => simp [operandCheck, Instr.wf]
  | writeBurst index count =>
    have h : maxPkt = 64 := rfl
    simp [operandCheck, Instr.wf, h]
  | tx length =>
    have h : maxPkt = 64 := rfl
    simp only [operandCheck, Instr.wf, ite_eq_right_iff, reduceCtorEq, imp_false, decide_eq_true_eq, h]
    omega
  | readReg _ | readStatus _ | writeReg _ _ | configure | rx | readPkt _ | readRssi | decodeRssi _ =>
    simp [operandCheck, Instr.wf]

end Sys2Proof
end

