-- ==== Sys2Proof/Laws/Step.lean ====
section
/-! SUPPORT. Everything a step of the machine can do, said once: the inversion of a command that answers a state, and of a step
that does; and the command that CUR holds, from one step to the next. Statements over all steps cite these and do not unfold the
moves. -/

namespace Sys2Proof.Machine

/-- A command is `runCommand` of its expansion. -/
theorem exec_eq_runCommand (i : Instr) (s : State) : exec i s = runCommand i (bodyOf i) s := by
  cases i <;> rfl

/-- A sequencer step that answers a state answers `seqAdvance`. -/
theorem seqStep_next {s t : State} (h : seqStep s = .next t) : t = seqAdvance s := by
  unfold seqStep at h
  split at h <;> (try split at h) <;> (try split at h) <;> simp_all

/-- What holds of a state and of its successor under every sequencer step holds after a run. -/
theorem runSeq_induct {P : State → Prop} (h : ∀ s, P s → P (seqAdvance s)) (n : Nat) {s : State} (hs : P s) :
    P (runSeq n s) := by
  induction n generalizing s with
  | zero => exact hs
  | succ n ih =>
    unfold runSeq
    split
    · exact hs
    · exact ih (h s hs)

/-- A command that answers a state was turned away with a code, or ran from the accepted state. -/
theorem runCommand_next {i : Instr} {body : State → List MicroOp} {s t : State} (h : runCommand i body s = .next t) :
    s.rstN = true ∧
      ((s.busy = true ∧ t = reject .busyCollision s) ∨
        (s.busy = false ∧ ∃ c, operandCheck i = some c ∧ t = reject c s) ∨
        (s.busy = false ∧ operandCheck i = none ∧ seqStep (accept i body s) = .next (seqAdvance (accept i body s)) ∧
          t = runSeq (runFuel + 1) (accept i body s))) := by
  unfold runCommand at h
  split at h
  · simp at h
  rename_i hr
  refine ⟨by simpa using hr, ?_⟩
  split at h
  · exact .inl ⟨‹_›, by simpa using h.symm⟩
  rename_i hb
  have hb : s.busy = false := by simpa using hb
  split at h
  · exact .inr (.inl ⟨hb, _, ‹_›, by simpa using h.symm⟩)
  split at h
  · rename_i u hu
    have := seqStep_next hu
    subst this
    refine .inr (.inr ⟨hb, ‹_›, hu, ?_⟩)
    have : t = runSeq runFuel (seqAdvance (accept i body s)) := by simpa using h.symm
    rw [this]
    simp [runSeq]
  · simp at h
  · simp at h

/-- A decoded command has passed the operand checks. -/
theorem operandCheck_of_decode {w : Word} {i : Instr} (h : decode w = .cmd i) : operandCheck i = none := by
  unfold decode at h
  split at h
  · simp at h
  split at h
  · simp at h
  split at h
  · simp at h
  split at h <;> simp_all

/-- No rejection has the code NONE (R271). -/
theorem decode_reject_ne_none {w : Word} {c : Code} (h : decode w = .reject c) : c ≠ .none := by
  have hop : ∀ i c, operandCheck i = some c → c ≠ .none := by
    intro i c hc
    cases i <;> simp only [operandCheck] at hc <;> (try split at hc) <;> simp_all <;> (rw [← hc]; simp)
  unfold decode at h
  split at h
  · simp_all
    rw [← h]
    simp
  split at h
  · simp_all
    rw [← h]
    simp
  split at h
  · simp_all
    rw [← h]
    simp
  split at h
  · rename_i hc
    obtain rfl : _ = c := by simpa using h
    exact hop _ _ hc
  · simp at h

/-- A clocked outcome that is a state is the clock edge of one. -/
theorem clocked_next {o : Host.Outcome State Fault Refusal} {t : State} (h : clocked o = .next t) :
    ∃ u, o = .next u ∧ t = clockEdge u := by
  cases o <;> simp_all [clocked]

/-- A host read that answers a state is legal, and only its draws and the port's outputs differ. -/
theorem memRead_next {off : BitVec 8} {s t : State} (h : memRead off s = .next t) :
    off.extractLsb' 0 2 = 0 ∧
      t = answer (readValue off.toNat s) (if inBuffers off.toNat then drawBytes s else s) := by
  unfold memRead at h
  split at h
  · simp at h
  · rename_i hn
    exact ⟨by simpa using hn, by simpa using h.symm⟩

/-- A host write that answers a state is legal. -/
theorem memWrite_next {off : BitVec 8} {w : Word} {strb : BitVec 4} {s t : State} (h : memWrite off w strb s = .next t) :
    off.extractLsb' 0 2 = 0 ∧ strb = 0xF ∧ t = { writeEffect off.toNat w s with hErr := false } := by
  unfold memWrite at h
  split at h
  · simp at h
  · rename_i hn
    simp only [not_or, not_not] at hn
    exact ⟨hn.1, hn.2, by simpa using h.symm⟩

/-- A step that answers a state, taken apart by the move it makes. -/
theorem step_cases {s t : State} (h : step s = .next t) :
    -- held in reset: nothing, or its release
    (s.rstN = false ∧ ∃ rest, t = { s with agenda := rest } ∨ t = { s with agenda := rest, rstN := true }) ∨
    (s.rstN = true ∧
      -- the sequencer steps: by itself, as the agenda's move, or between two polls
      ((∃ rest, t = seqAdvance { s with agenda := rest } ∧ seqStep { s with agenda := rest } = .next t) ∨
        (s.busy = true ∧ t = seqAdvance (answer (statusWord s) s) ∧ seqStep (answer (statusWord s) s) = .next t) ∨
        -- the last poll, a bare clock edge, and RST_N driven to where it is
        (∃ rest, t = clockEdge { answer (statusWord s) s with agenda := rest }) ∨
        (∃ rest, t = clockEdge { s with agenda := rest }) ∨
        (∃ rest, t = { s with agenda := rest }) ∨
        -- reset
        (∃ seen rest, s.agenda = .resetLow seen :: rest ∧ t = enterReset seen { s with agenda := rest }) ∨
        -- a host read and a host write
        (∃ off rest u, s.agenda = .read off :: rest ∧ memRead off { s with agenda := rest } = .next u ∧ t = clockEdge u) ∨
        (∃ off w rest, s.agenda = .write off w 0xF :: rest ∧ off.extractLsb' 0 2 = 0 ∧
          t = clockEdge { writeEffect off.toNat w { s with agenda := rest } with hErr := false }) ∨
        -- a command line: turned away, or run
        (∃ w rest c, s.agenda = .command w :: rest ∧ c ≠ Code.none ∧
          t = clockEdge (reject c { s with agenda := .waitIdle :: rest })) ∨
        (∃ w rest i, s.agenda = .command w :: rest ∧ decode w = .cmd i ∧ s.busy = false ∧
          t = clockEdge (runSeq (runFuel + 1) (accept i (bodyOf i) { s with agenda := .waitIdle :: rest }))))) := by
  unfold step machineMove at h
  split at h
  · rename_i ha
    split at h
    · refine .inr ⟨‹_›, .inl ⟨[], ?_⟩⟩
      rw [show ({ s with agenda := [] } : State) = s by rw [← ha]]
      exact ⟨seqStep_next h, h⟩
    · rename_i hr
      refine .inl ⟨by simpa using hr, [], .inl ?_⟩
      rw [← ha]
      simpa using h.symm
  · rename_i m rest ha
    split at h
    · rename_i hr
      refine .inr ⟨hr, ?_⟩
      cases m with
      | read off =>
        obtain ⟨u, hu, rfl⟩ := clocked_next h
        exact .inr (.inr (.inr (.inr (.inr (.inr (.inl ⟨off, rest, u, ha, hu, rfl⟩))))))
      | write off w strb =>
        obtain ⟨u, hu, rfl⟩ := clocked_next h
        obtain ⟨ho, rfl, rfl⟩ := memWrite_next hu
        exact .inr (.inr (.inr (.inr (.inr (.inr (.inr (.inl ⟨off, w, rest, ha, ho, rfl⟩)))))))
      | command w =>
        obtain ⟨u, hu, rfl⟩ := clocked_next h
        refine .inr (.inr (.inr (.inr (.inr (.inr (.inr (.inr ?_)))))))
        unfold issueCommand at hu
        split at hu
        · simp at hu
        split at hu
        · exact .inl ⟨w, rest, .busyCollision, ha, by simp, by rw [← Host.Outcome.next.inj hu]⟩
        rename_i hb
        split at hu
        · rename_i c hd
          exact .inl ⟨w, rest, c, ha, decode_reject_ne_none hd, by rw [← Host.Outcome.next.inj hu]⟩
        · rename_i i hd
          rw [exec_eq_runCommand] at hu
          obtain ⟨-, hc⟩ := runCommand_next hu
          have hop := operandCheck_of_decode hd
          rcases hc with ⟨hb', -⟩ | ⟨-, c, hc, -⟩ | ⟨hb', -, -, hc⟩
          · exact absurd hb' hb
          · simp [hop] at hc
          · exact .inr ⟨w, rest, i, ha, hd, hb', by rw [hc]⟩
      | waitIdle =>
        simp only [moveRunning, pollIdle] at h
        split at h
        · exact .inr (.inl ⟨‹_›, seqStep_next h, h⟩)
        · exact .inr (.inr (.inl ⟨rest, by simpa using h.symm⟩))
      | sequencer => exact .inl ⟨rest, seqStep_next h, h⟩
      | clock => exact .inr (.inr (.inr (.inl ⟨rest, by simpa [moveRunning] using h.symm⟩)))
      | resetLow seen => exact .inr (.inr (.inr (.inr (.inr (.inl ⟨seen, rest, ha, by simpa [moveRunning] using h.symm⟩)))))
      | resetHigh => exact .inr (.inr (.inr (.inr (.inl ⟨rest, by simpa [moveRunning] using h.symm⟩))))
    · rename_i hr
      refine .inl ⟨by simpa using hr, rest, ?_⟩
      cases m <;> simp_all [moveInReset]

/-! ## The command in CUR (R52) -/

/-- An expansion depends on CUR and the parameters only (R51, R57). -/
theorem bodyOf_congr (i : Instr) {s t : State} (hc : t.cur = s.cur) (hp : t.params = s.params) : bodyOf i t = bodyOf i s := by
  cases i <;>
    simp [bodyOf, bodyStrobe, bodyReadReg, bodyReadStatus, bodyWriteReg, bodyWriteBurst, bodyConfigure, bodyRx, bodyTx,
      bodyReadPkt, bodyReadRssi, bodyDecodeRssi, curStrobe, curIndex, curData, curCount, hc, hp]

theorem noChecks_append (xs ys : List MicroOp) : noChecks (xs ++ ys) = (noChecks xs && noChecks ys) := by simp [noChecks]

theorem noChecks_cons (m : MicroOp) (xs : List MicroOp) : noChecks (m :: xs) = (!isCheck m && noChecks xs) := rfl

theorem noChecks_nil : noChecks [] = true := rfl

theorem noChecks_flatten {l : List (List MicroOp)} (h : ∀ x ∈ l, noChecks x = true) : noChecks l.flatten = true := by
  induction l with
  | nil => rfl
  | cons x l ih =>
    rw [List.flatten_cons, noChecks_append, h x (by simp), ih (fun y hy => h y (by simp [hy]))]
    rfl

theorem noChecks_tail {l : List MicroOp} (h : noChecks l = true) : noChecks l.tail = true := by
  cases l with
  | nil => rfl
  | cons m l =>
    rw [noChecks_cons, Bool.and_eq_true] at h
    exact h.2

/-- A transaction around steps that are no checks holds no check. -/
theorem noChecks_spiTxn (p : Params) {xs : List MicroOp} (h : noChecks xs = true) : noChecks (spiTxn p xs) = true := by
  unfold spiTxn
  split <;> simp only [noChecks_append, noChecks_cons, noChecks_nil, h] <;> rfl

/-- A transaction of given bytes holds no check. -/
theorem noChecks_spiBytes (p : Params) (bs : List Byte) : noChecks (spiBytes p bs) = true :=
  noChecks_spiTxn p (by simp [noChecks, isCheck])

/-- A burst from TXBUF holds no check. -/
theorem noChecks_writeBurstTxbuf (p : Params) (a : Index) (n : Nat) : noChecks (writeBurstTxbuf p a n) = true :=
  noChecks_spiTxn p (by simp [noChecks, isCheck])

/-- Only the first step of an expansion may be a check (R278, R312). -/
theorem noChecks_bodyOf_tail (i : Instr) (s : State) : noChecks (bodyOf i s).tail = true := by
  have profile : ∀ (p : Params) (l : List ProfileEntry),
      noChecks (l.map (fun e => spiBytes p [e.addr, e.value])).flatten = true := fun p l =>
    noChecks_flatten (by
      simp only [List.mem_map]
      rintro x ⟨e, -, rfl⟩
      exact noChecks_spiBytes _ _)
  cases i <;>
    simp only [bodyOf, bodyStrobe, bodyReadReg, bodyReadStatus, bodyWriteReg, bodyWriteBurst, bodyConfigure, bodyRx, bodyTx,
      bodyReadPkt, bodyReadRssi, bodyDecodeRssi, strobeTxn, readRegisterTxn, readStatusTxn, writeRegisterTxn, writeBurstTxn,
      fifoRead, List.cons_append, List.append_assoc, List.tail_cons] <;>
    first
    | (simp only [noChecks_append, noChecks_cons, noChecks_nil, noChecks_spiBytes, noChecks_writeBurstTxbuf, profile, isCheck]
       done)
    | (apply noChecks_tail
       simp only [noChecks_append, noChecks_cons, noChecks_nil, noChecks_spiBytes, isCheck]
       rfl)
    | (simp only [noChecks_append, noChecks_cons, noChecks_nil, noChecks_spiBytes, noChecks_writeBurstTxbuf, profile, isCheck]
       rfl)

/-- READ_PKT's steps after a malformed length hold no check. -/
theorem noChecks_packetFlush (p : Params) : noChecks (packetFlush p) = true := by
  simp only [packetFlush, strobeTxn, noChecks_append, noChecks_spiBytes]
  rfl

/-- READ_PKT's steps after a well-formed length hold no check. -/
theorem noChecks_packetTail (p : Params) (len k : Nat) : noChecks (packetTail p len k) = true := by
  have read : noChecks (fifoRead p) = true := noChecks_spiBytes _ _
  have copies : ∀ n, noChecks (List.replicate n (fifoRead p ++ [.rxStore])).flatten = true := fun n =>
    noChecks_flatten (fun x hx => by rw [List.eq_of_mem_replicate hx, noChecks_append, read]; rfl)
  have drops : ∀ n, noChecks (List.replicate n (fifoRead p)).flatten = true := fun n =>
    noChecks_flatten (fun x hx => by rw [List.eq_of_mem_replicate hx]; exact read)
  simp only [packetTail, noChecks_append, copies, drops, read]
  rfl

/-- A step that keeps CUR and the parameters keeps what is known of the command that runs. -/
theorem curInv_congr {s t : State} {op : Operation} {pos : List MicroOp} (h : s.CurInv op pos) (hc : t.cur = s.cur)
    (hp : t.params = s.params) : t.CurInv op pos := by
  obtain ⟨i, hw, ho, hf, hpos⟩ := h
  exact ⟨i, hw, ho, hc.trans hf, hpos.imp_left (fun e => e.trans (bodyOf_congr i hc hp).symm)⟩

/-- The steps after the one made hold no check. -/
theorem curInv_rest {s t : State} {op : Operation} {m : MicroOp} {rest : List MicroOp} (h : s.CurInv op (m :: rest))
    (hc : t.cur = s.cur) : t.CurInv op rest := by
  obtain ⟨i, hw, ho, hf, hpos⟩ := h
  refine ⟨i, hw, ho, hc.trans hf, .inr ?_⟩
  rcases hpos with e | e
  · have := noChecks_bodyOf_tail i s
    rwa [← e] at this
  · exact noChecks_tail e

end Sys2Proof.Machine
end

