-- ==== Sys2Proof/Laws/Host.lean ====
section
/-! SUPPORT. The words a host reads, bit by bit and byte by byte, and what no sequencer step changes. -/

namespace Sys2Proof.Machine

/-- Bit `k` of the STATUS word (R34). -/
theorem getLsbD_statusWord (s : State) (k : Nat) :
    (statusWord s).getLsbD k =
      if k = 0 then s.busy else if k = 1 then s.done else if k = 2 then s.err
      else if k = 3 then false else if k < 7 then (codeBits s.errCode).getLsbD (k - 4)
      else if k = 7 then false else if k < 10 then (lifecycleBits s.lifecycle).getLsbD (k - 8)
      else if k = 10 then s.configOk else if k = 11 then false else if k = 12 then readyLine s
      else if k = 13 then auxLine s else if k = 14 then csActive s else false := by
  have h : (statusWord s).getLsbD k = BitVec.getLsbD (w := 17 + 1 + 1 + 1 + 1 + 1 + 2 + 1 + 3 + 1 + 1 + 1 + 1)
    (0#17 ++ BitVec.ofBool (csActive s) ++ BitVec.ofBool (auxLine s) ++ BitVec.ofBool (readyLine s) ++ 0#1 ++
    BitVec.ofBool s.configOk ++ lifecycleBits s.lifecycle ++ 0#1 ++ codeBits s.errCode ++ 0#1 ++ BitVec.ofBool s.err ++
    BitVec.ofBool s.done ++ BitVec.ofBool s.busy) k := rfl
  rw [h]
  simp only [BitVec.getLsbD_append, BitVec.getLsbD_ofBool, Nat.sub_sub]
  by_cases hk : k < 15
  · clear h
    interval_cases k <;> simp
  · have e : ∀ j, j ≤ 14 → ¬k < j ∧ ¬k = j := fun j hj => ⟨by omega, by omega⟩
    simp [show ¬k < 1 by omega, show ¬k - 1 < 1 by omega, show ¬k - 2 < 1 by omega, show ¬k - 3 < 1 by omega,
      show ¬k - 4 < 3 by omega, show ¬k - 7 < 1 by omega, show ¬k - 8 < 2 by omega, show ¬k - 10 < 1 by omega,
      show ¬k - 11 < 1 by omega, show ¬k - 12 < 1 by omega, show ¬k - 13 < 1 by omega, show ¬k - 14 < 1 by omega, e]

/-- Byte `j` of a buffer word is the byte the host sees at the word's address plus `j` (R90). -/
theorem extract_bufferWord (s : State) (a j : Nat) (hj : j < 4) :
    (bufferWord s a).extractLsb' (8 * j) 8 = hostByte s (a + j) j := by
  have h : ∀ k, (bufferWord s a).getLsbD k = BitVec.getLsbD (w := 8 + 8 + 8 + 8)
    (hostByte s (a + 3) 3 ++ hostByte s (a + 2) 2 ++ hostByte s (a + 1) 1 ++ hostByte s a 0) k := fun _ => rfl
  apply BitVec.eq_of_getLsbD_eq
  intro k hk
  rw [BitVec.getLsbD_extractLsb', h]
  interval_cases j <;> simp only [BitVec.getLsbD_append] <;> interval_cases k <;> simp

/-- A buffer byte that the host reads outside a racing READ_PKT is the byte stored there, or a draw if it is unwritten (R85, R108,
R312). -/
theorem hostByte_of_no_race {s : State} {a : Nat} (j : Nat) (hr : a < 0x80 ∨ ∀ pos w, s.seq ≠ .run .readPkt pos w) :
    hostByte s a j = (memGet s.mem a).getD (s.ram.peek Config.ramByte j) := by
  unfold hostByte
  split
  · rename_i pos w hs
    rcases hr with hr | hr
    · simp [show ¬128 ≤ a by omega]
    · exact absurd hs (hr pos w)
  · rfl

/-- What no step of the sequencer changes: the parameters, the moves to come, RST_N, SCLK, ERR and ERRCODE (R37), CUR (R52), the
port's outputs, and the draws of unwritten RAM and of races. -/
theorem seqAdvance_keeps (s : State) :
    (seqAdvance s).params = s.params ∧ (seqAdvance s).agenda = s.agenda ∧ (seqAdvance s).rstN = s.rstN ∧
      (seqAdvance s).sclk = s.sclk ∧ (seqAdvance s).err = s.err ∧ (seqAdvance s).errCode = s.errCode ∧
      (seqAdvance s).cur = s.cur ∧ (seqAdvance s).hRdata = s.hRdata ∧ (seqAdvance s).hErr = s.hErr ∧
      (seqAdvance s).ram = s.ram ∧ (seqAdvance s).race = s.race := by
  have hc : ∀ (c : Completion) (w : Work) (u : State), (complete c w u).params = u.params ∧
      (complete c w u).agenda = u.agenda ∧ (complete c w u).rstN = u.rstN ∧ (complete c w u).sclk = u.sclk ∧
      (complete c w u).err = u.err ∧ (complete c w u).errCode = u.errCode ∧ (complete c w u).cur = u.cur ∧
      (complete c w u).hRdata = u.hRdata ∧ (complete c w u).hErr = u.hErr ∧ (complete c w u).ram = u.ram ∧
      (complete c w u).race = u.race := by
    intro c w u
    cases c <;> simp only [complete, writeResult] <;> (try split) <;> simp only [and_self]
  unfold seqAdvance
  split
  · exact ⟨rfl, rfl, rfl, rfl, rfl, rfl, rfl, rfl, rfl, rfl, rfl⟩
  · exact ⟨rfl, rfl, rfl, rfl, rfl, rfl, rfl, rfl, rfl, rfl, rfl⟩
  · rename_i op m rest w _
    cases m with
    | complete c => exact hc c w (clockEdge s)
    | waitSo => unfold microStep; dsimp only; split <;> exact ⟨rfl, rfl, rfl, rfl, rfl, rfl, rfl, rfl, rfl, rfl, rfl⟩
    | pktLength =>
      unfold microStep decideLength
      dsimp only
      split <;> exact ⟨rfl, rfl, rfl, rfl, rfl, rfl, rfl, rfl, rfl, rfl, rfl⟩
    | needTx _ | needTables | csLow | xfer _ | xferTx _ | csHigh | delayStart _ | delayEnd _ | rxStore | latchLqi =>
      exact ⟨rfl, rfl, rfl, rfl, rfl, rfl, rfl, rfl, rfl, rfl, rfl⟩

/-- No step of the sequencer changes a byte of TXBUF or its written flag (R48). -/
theorem seqAdvance_txbuf (s : State) (i : Nat) (hi : i < 64) :
    memGet (seqAdvance s).mem (txAddr i) = memGet s.mem (txAddr i) := by
  unfold seqAdvance
  split
  · rfl
  · rfl
  · rename_i op m rest w _
    cases m with
    | complete c => cases c <;> simp only [microStep, complete, writeResult] <;> (try split) <;> rfl
    | waitSo => unfold microStep; dsimp only; split <;> rfl
    | pktLength => unfold microStep decideLength; dsimp only; split <;> rfl
    | rxStore =>
      unfold microStep
      dsimp only
      split
      · exact memGet_memSet_other _ _ _ _ (by simp only [txAddr, rxAddr]; omega)
      · rfl
    | needTx _ | needTables | csLow | xfer _ | xferTx _ | csHigh | delayStart _ | delayEnd _ | latchLqi => rfl

end Sys2Proof.Machine
end

