-- ==== Sys2Proof/Laws/Packet.lean ====
section
/-! SUPPORT. What READ_PKT does up to its decision on the declared length, and what its copying reads do. -/

namespace Sys2Proof.Machine

/-- A single read of the FIFO is the transaction [0xBF, DUMMY_BYTE] (R127, R223). -/
theorem fifoRead_eq (p : Params) : fifoRead p = spiTxn p [.xfer 0xBF, .xfer p.dummyByte] := by
  rw [fifoRead, readRegisterTxn, spiBytes, show readHeader fifoAddr = 0xBF by decide]
  rfl

/-- READ_PKT's decision on the length writes SEQ only. -/
theorem decideLength_eq (op : Operation) (w : Work) (s : State) :
    decideLength op w s = { s with seq := (decideLength op w s).seq } := by
  unfold decideLength
  dsimp only
  split <;> rfl

theorem reaches_pktLength (op : Operation) (s : State) (w : Work) (hs : s.seq = .run op [.pktLength] w) :
    Reaches 1 s (decideLength op w (clockEdge s)) := by
  simpa [microStep] using Reaches.step hs

/-- READ_PKT's step 1 (R220): the declared length is read, and the decision on it is taken. -/
theorem reaches_length (s : State) (c : Byte) (n : Nat) (hso : s.SoFree (n + 1)) :
    seqStep (accept (.readPkt c) bodyReadPkt s) = .next (seqAdvance (accept (.readPkt c) bodyReadPkt s)) ∧
    ∃ t m, m ≤ 6 ∧ Reaches m (accept (.readPkt c) bodyReadPkt s) t ∧
      t.seq = (decideLength .readPkt { Work.start s.mem with last := s.misoAt 1 }
        { s with cur := (Instr.readPkt c).fields }).seq ∧
      t.csN = true ∧ t.mem = s.mem ∧
      Passes (accept (.readPkt c) bodyReadPkt s) t (s.busOf 0 [[0xBF, s.params.dummyByte]]) 2 (1 * txnWaits s.params) ∧
      t.SoFree n := by
  have haseq : (accept (.readPkt c) bodyReadPkt s).seq =
      .run .readPkt (([[.xfer 0xBF, .xfer s.params.dummyByte]].map (spiTxn s.params)).flatten ++ [.pktLength])
        (Work.start s.mem) := by
    rw [accept_seq]
    simp [bodyReadPkt, fifoRead_eq, Instr.operation]
  refine ⟨seqStep_eq_next (m := .csLow) (by rw [haseq]; rfl) (by simp) (by simp), ?_⟩
  obtain ⟨k, t, hk, h1, hts, htc, htm, htp⟩ := reaches_txns _ _ [[.xfer 0xBF, .xfer s.params.dummyByte]]
    [[0xBF, s.params.dummyByte]] _ _ (by simp [sentByte]) haseq (by simpa using SoFree.mono hso (by omega))
  have h2 := reaches_pktLength _ _ _ hts
  rw [accept_busOf] at htp
  have hcur : t.cur = (Instr.readPkt c).fields := htp.cur
  have hpar : t.params = s.params := htp.params
  have hp2 : Passes t (decideLength .readPkt { Work.start s.mem with last := s.misoAt 1 } (clockEdge t)) [] 0 0 := by
    rw [decideLength_eq]
    constructor <;> simp
  have hp := htp.trans hp2
  refine ⟨_, _, ?_, h1.trans h2, ?_, ?_, ?_, ?_, ?_⟩
  · simp at hk
    omega
  · simp [lastReply, decideLength, curCapacity, hcur, hpar]
    split <;> rfl
  · rw [decideLength_eq]
    simpa using htc
  · rw [decideLength_eq]
    simpa using htm
  · simpa [lastReply] using hp
  · have := Passes.soFree (k := 1) (j := n) (n := 2) hp (by simpa [Nat.add_comm] using hso)
    simpa [lastReply] using this

/-- READ_PKT's copying reads (R220 step 3, R225): `k` single reads, each byte stored at the next index of RXBUF. -/
theorem reaches_copy (op : Operation) (rest : List MicroOp) (k : Nat) (s : State) (w : Work)
    (hs : s.seq = .run op ((List.replicate k (fifoRead s.params ++ [.rxStore])).flatten ++ rest) w) (hso : s.SoFree k)
    (hk : w.i + k ≤ 64) :
    ∃ c t, c ≤ 6 * k ∧ Reaches c s t ∧ (∃ l, t.seq = .run op rest { w with last := l, i := w.i + k }) ∧
      (s.csN = true → t.csN = true) ∧
      Passes s t (s.busOf 0 (List.replicate k [0xBF, s.params.dummyByte])) (2 * k) (k * txnWaits s.params) ∧
      (∀ j < k, memGet t.mem (rxAddr (w.i + j)) = some (s.misoAt (2 * j + 1))) ∧
      ∀ a, (∀ j < k, a ≠ rxAddr (w.i + j)) → memGet t.mem a = memGet s.mem a := by
  induction k generalizing s w with
  | zero =>
    exact ⟨0, s, by simp, Reaches.refl s, ⟨w.last, by simpa using hs⟩, id, by simpa [State.busOf] using Passes.refl s,
      by simp, by simp⟩
  | succ k ih =>
    obtain ⟨t, h1, hts, htc, htm, htp⟩ := reaches_txn op
      (.rxStore :: ((List.replicate k (fifoRead s.params ++ [.rxStore])).flatten ++ rest))
      [.xfer 0xBF, .xfer s.params.dummyByte] [0xBF, s.params.dummyByte] s w (by simp [sentByte])
      (by rw [hs, ← fifoRead_eq, List.replicate_succ]; simp) (hso.imp id fun h => h 0 (by simp))
    have h2 := Reaches.step hts
    have hi : w.i < 64 := by omega
    obtain ⟨u, hu, hus, huc, hum, hup⟩ :
        ∃ u, microStep op .rxStore ((List.replicate k (fifoRead s.params ++ [.rxStore])).flatten ++ rest)
            { w with last := lastReply s w.last 2 } (clockEdge t) = u ∧
          u.seq = .run op ((List.replicate k (fifoRead s.params ++ [.rxStore])).flatten ++ rest)
            { w with last := lastReply s w.last 2, i := w.i + 1 } ∧
          u.csN = true ∧ u.mem = memSet s.mem (rxAddr w.i) (s.misoAt 1) ∧ Passes t u [] 0 0 := by
      refine ⟨_, rfl, rfl, htc, ?_, ?_⟩
      · simp [microStep, hi, htm, lastReply]
      · constructor <;> simp [microStep]
    have hp := htp.trans hup
    have hup' : u.params = s.params := hp.params
    simp only [List.length_cons, List.length_nil] at h2
    rw [hu] at h2
    obtain ⟨c, v, hc, h3, ⟨l, hvs⟩, hvc, hvp, hv1, hv2⟩ := ih u { w with last := lastReply s w.last 2, i := w.i + 1 }
      (by rw [hus, hup']) (Passes.soFree (k := 1) (by simpa using hp) (by simpa [Nat.add_comm] using hso))
      (by simp; omega)
    refine ⟨_, v, ?_, (h1.trans h2).trans h3, ⟨l, ?_⟩, fun _ => hvc huc, ?_, ?_, ?_⟩
    · simp only [txnCost, List.length_cons, List.length_nil]
      split <;> omega
    · rw [hvs]
      simp
      omega
    · have h := hp.trans hvp
      rw [hp.busOf, hup'] at h
      rw [show 2 * (k + 1) = [0xBF, s.params.dummyByte].length + 0 + 2 * k by simp; omega,
        show (k + 1) * txnWaits s.params = txnWaits s.params + 0 + k * txnWaits s.params by ring, List.replicate_succ]
      simpa [State.busOf] using h
    · intro j hj
      rcases j with _ | j
      · rw [hv2 _ (by intro j hj; simp [rxAddr]; omega), hum]
        simp [memGet_memSet]
      · have := hv1 j (by omega)
        simp only [hp.misoAt] at this
        rw [show rxAddr (w.i + (j + 1)) = rxAddr (w.i + 1 + j) by simp [rxAddr]; omega, this]
        congr 2
        simp
        omega
    · intro a ha
      rw [hv2 a (fun j hj => by have := ha (j + 1) (by omega); simp [rxAddr] at this ⊢; omega), hum, memGet_memSet, if_neg]
      simpa using ha 0 (by simp)

end Sys2Proof.Machine
end

