-- ==== Sys2Proof/Laws/PerInstr.lean ====
section
/-! SUPPORT. One law per command: the word of a command meets the mask and match value of its row in the table of R122, and its
fields name the command. -/

namespace Sys2Proof.Laws.EncodingRow

/-- The command's OP value has a row (R121), its word meets that row (R122), and its fields name the command (R124). -/
def Statement (i : Instr) : Prop :=
  (∃ r, rowOf i.fields.op = some r ∧ encode i &&& r.mask = r.value) ∧ instrOf (fieldsOf (encode i)) = some i

theorem all (i : Instr) : Statement i :=
  ⟨encode_and_mask i, by rw [show fieldsOf (encode i) = i.fields from fieldsOf_word _, instrOf_fields]⟩

theorem strobe (opcode : Byte) : Statement (.strobe opcode) := all _
theorem readReg (index : Index) : Statement (.readReg index) := all _
theorem readStatus (index : Index) : Statement (.readStatus index) := all _
theorem writeReg (index : Index) (value : Byte) : Statement (.writeReg index value) := all _
theorem writeBurst (index : Index) (count : BitVec 7) : Statement (.writeBurst index count) := all _
theorem configure : Statement .configure := all _
theorem rx : Statement .rx := all _
theorem tx (length : BitVec 7) : Statement (.tx length) := all _
theorem readPkt (capacity : Byte) : Statement (.readPkt capacity) := all _
theorem readRssi : Statement .readRssi := all _
theorem decodeRssi (raw : Byte) : Statement (.decodeRssi raw) := all _

end Sys2Proof.Laws.EncodingRow
end

