-- ==== Sys2Proof/Tests/Slice0.lean ====
section
/-! SUPPORT. Tests with expected values from spec/95_test_vectors.md and the rules' worked examples, and for every statement with
hypotheses a concrete state and operands that meet them. -/

namespace Sys2Proof.Tests

open Sys2Proof.Machine

/-! ## States the tests start from -/

/-- Concrete parameters: the defaults of R10 and R11, and a made-up profile. -/
def params : Params :=
  { dummyByte := 0x00
    waitSoLow := false
    rssiAddr := 0x34
    hasAux := false
    profile := (List.range 30).map (fun k => { top := 0, index := BitVec.ofNat 6 k, value := BitVec.ofNat 8 (100 + k) })
    patable := [0xC0, 0xC1, 0xC2, 0xC3, 0xC4, 0xC5, 0xC6, 0xC7]
    clkHz := 1000000
    sclkDivPred := 3
    settleExtraUs := 0
    txDelayUs := 100000
    tCsh := 8
    trxcBase := 0 }

/-- The state after reset with those parameters. -/
def base : State := { State.reset with params := params }

/-- A transceiver that answers two-byte reads with the data bytes `bs`; what it answers to a header is 0xEE. -/
def answering (bs : List Byte) : State :=
  { base with miso := { queue := (bs.map (fun b => [0xEE, b])).flatten, drawn := 0 } }

/-- TXBUF loaded with the given bytes. -/
def loaded (bs : List Byte) : State :=
  { base with mem := (List.range bs.length).map (fun i => (0x40 + i, bs.getD i 0)) }

/-- A command is running: STROBE, before its first step. -/
def running : State :=
  { base with
    busy := true
    cur := (Instr.strobe 0x34).fields
    seq := .run .strobe [.csLow, .xfer 0x34, .csHigh, .complete .plain] (Work.start []) }

/-- A field of the state a command or step answers. -/
def after {α : Type} (o : Host.Outcome State Fault Refusal) (f : State → α) : Option α :=
  match o with
  | .next t => some (f t)
  | .fault _ => none
  | .refused _ => none

/-- The fault a command or step stops with. -/
def faultOf (o : Host.Outcome State Fault Refusal) : Option Fault :=
  match o with
  | .next _ => none
  | .fault f => some f
  | .refused _ => none

/-- The refusal a command or step stops with. -/
def refusalOf (o : Host.Outcome State Fault Refusal) : Option Refusal :=
  match o with
  | .next _ => none
  | .fault _ => none
  | .refused r => some r

/-- The MOSI bytes of each transaction of a bus record. -/
def txnsOf : List BusEvent → List (List Byte)
  | [] => []
  | .csRise :: rest => [] :: txnsOf rest
  | .xfer m _ :: rest =>
    match txnsOf rest with
    | [] => [[m]]
    | bs :: more => (m :: bs) :: more
  | .csFall :: rest => txnsOf rest
  | .xferCut _ _ _ :: rest => txnsOf rest
  | .resetFall :: rest => txnsOf rest
  | .delayStart _ :: rest => txnsOf rest
  | .delayEnd _ :: rest => txnsOf rest

/-! ## Well-formedness: an ill-formed term for each check -/

theorem test_wf_refuses_strobe_outside_the_set : (Instr.strobe 0x37).wf = false := by decide
theorem test_wf_refuses_strobe_with_header_bits : (Instr.strobe 0x74).wf = false := by decide
theorem test_wf_refuses_burst_of_65 : (Instr.writeBurst 0x3F 65).wf = false := by decide
theorem test_wf_refuses_empty_packet : (Instr.tx 0).wf = false := by decide
theorem test_wf_refuses_packet_of_65 : (Instr.tx 65).wf = false := by decide

/-! ## Decoding (95_test_vectors.md §2.1), one word of each command written out from R122 -/

theorem test_decode_strobe : decode 0b00000000000000000011010000000001#32 = .cmd (.strobe 0x34) := by decide
theorem test_decode_readReg : decode 0b00000000000000000001001000000010#32 = .cmd (.readReg 0x12) := by decide
theorem test_decode_readStatus : decode 0b00000000000000000011010000000011#32 = .cmd (.readStatus 0x34) := by decide
theorem test_decode_writeReg : decode 0b00000000000100000000110100000100#32 = .cmd (.writeReg 0x0D 0x10) := by decide
theorem test_decode_writeBurst : decode 0b00001000000000000011111000000101#32 = .cmd (.writeBurst 0x3E 8) := by decide
theorem test_decode_configure : decode 0b00000000000000000000000000001000#32 = .cmd .configure := by decide
theorem test_decode_rx : decode 0b00000000000000000000000000001001#32 = .cmd .rx := by decide
theorem test_decode_tx : decode 0b01000000000000000000000000001010#32 = .cmd (.tx 64) := by decide
theorem test_decode_readPkt : decode 0b00000000111111110000000000001011#32 = .cmd (.readPkt 255) := by decide
theorem test_decode_readRssi : decode 0b00000000000000000000000000001100#32 = .cmd .readRssi := by decide
theorem test_decode_decodeRssi : decode 0b00000000110010000000000000001101#32 = .cmd (.decodeRssi 200) := by decide

/-- The accepted words of 95_test_vectors.md §2.1 at the edges of their operands. -/
theorem test_decode_accepts_edges :
    decode 0x00003D01 = .cmd (.strobe 0x3D) ∧ decode 0x00003F02 = .cmd (.readReg 0x3F) ∧
      decode 0x00003F05 = .cmd (.writeBurst 0x3F 0) ∧ decode 0x40003F05 = .cmd (.writeBurst 0x3F 64) ∧
      decode 0x0100000A = .cmd (.tx 1) ∧ decode 0x0000000B = .cmd (.readPkt 0) := by decide

/-- The rejections of 95_test_vectors.md §2.1 by code: ILLEGAL_OP. -/
theorem test_decode_illegal_op :
    [0x00000000#32, 0x00000006#32, 0x00000007#32, 0x0000000E#32, 0x0000000F#32, 0xFFFFFFFF#32, 0x00000010#32].map decode =
      List.replicate 7 (.reject .illegalOp) := by decide

/-- RESERVED_FIELD, before ILLEGAL_STROBE and BAD_LENGTH. -/
theorem test_decode_reserved_field :
    [0x00013401#32, 0x80003701#32, 0x00004002#32, 0x00FF1202#32, 0x0000B403#32, 0x01100D04#32, 0x41013F05#32].map decode =
        List.replicate 7 (.reject .reservedField) ∧
      [0x00000108#32, 0x80000009#32, 0xC000000A#32, 0x0500010A#32, 0x0000001A#32].map decode =
        List.replicate 5 (.reject .reservedField) ∧
      [0x0100000B#32, 0x0000010C#32, 0x00803F0D#32, 0x00000018#32, 0x05003F04#32].map decode =
        List.replicate 5 (.reject .reservedField) := by decide

/-- ILLEGAL_STROBE and BAD_LENGTH. -/
theorem test_decode_strobe_and_length :
    [0x00003701#32, 0x00003C01#32, 0x00002F01#32, 0x00007401#32].map decode = List.replicate 4 (.reject .illegalStrobe) ∧
      [0x41003F05#32, 0x7F003F05#32, 0x0000000A#32, 0x4100000A#32].map decode = List.replicate 4 (.reject .badLength) := by
  decide

/-- The opcode table's words decode through `decodeTableWord`. -/
theorem test_decodeTableWord :
    decodeTableWord 32 0x00001202 = some (.readReg 0x12) ∧ decodeTableWord 32 0x00003701 = none := by decide

/-! ## Commands -/

/-- R152: `strobe 0x34` puts `CS↓, Xfer(0x34), CS↑` on the wire. -/
theorem test_strobe_trace :
    after (exec (.strobe 0x34) (answering [])) (fun t => t.trace.map (fun e => match e with | .xfer m _ => some m | _ => none)) =
      some [none, some 0x34, none] := by decide

/-- R131: an opcode outside StrobeSet is rejected. -/
theorem test_strobe_rejected : after (exec (.strobe 0x37) base) (fun t => (t.err, t.errCode, t.busy)) =
    some (true, .illegalStrobe, false) := by decide

/-- 95_test_vectors.md §2.2: `rdreg 0x12` answered 0x5A. -/
theorem test_readReg : after (exec (.readReg 0x12) (answering [0x5A])) (fun t => (txnsOf t.trace, t.rdata)) =
    some ([[0x92, 0x00]], 0x5A) := by decide

/-- 95_test_vectors.md §2.2: `rdreg 0x12` with DUMMY_BYTE = 0xFF, answered 0x01. -/
theorem test_readReg_dummy :
    after (exec (.readReg 0x12) { answering [0x01] with params := { params with dummyByte := 0xFF } })
      (fun t => (txnsOf t.trace, t.rdata)) = some ([[0x92, 0xFF]], 0x01) := by decide

/-- 95_test_vectors.md §2.2: `rdstat 0x34` answered 0xC8 leaves RSSI_RAW. -/
theorem test_readStatus :
    after (exec (.readStatus 0x34) (answering [0xC8])) (fun t => (txnsOf t.trace, t.rdata, t.rssiRaw)) =
      some ([[0xF4, 0x00]], 0xC8, 0x00) := by decide

/-- 95_test_vectors.md §2.2: `wrreg 0x0D, 0x10`. -/
theorem test_writeReg : after (exec (.writeReg 0x0D 0x10) base) (fun t => (txnsOf t.trace, t.rdata)) =
    some ([[0x0D, 0x10]], 0x00) := by decide

/-- 95_test_vectors.md §2.2: `wrburst 0x3F, 3`. -/
theorem test_writeBurst : after (exec (.writeBurst 0x3F 3) (loaded [0x11, 0x22, 0x33, 0x44])) (fun t => txnsOf t.trace) =
    some [[0x7F, 0x11, 0x22, 0x33]] := by decide

/-- 95_test_vectors.md §2.2: `wrburst 0x00, 5` with four bytes written faults. -/
theorem test_writeBurst_fault : faultOf (exec (.writeBurst 0x00 5) (loaded [0x11, 0x22, 0x33, 0x44])) =
    some .unwrittenTxByte := by decide

set_option maxRecDepth 8000 in
/-- 95_test_vectors.md §2.3: CONFIGURE's first and last transactions, and STATUS bits 10 to 8 after it. -/
theorem test_configure :
    after (exec .configure base)
        (fun t => ((txnsOf t.trace).take 2, (txnsOf t.trace).drop 31, t.configOk, lifecycleBits t.lifecycle)) =
      some ([[0x30], [0x00, 100]], [[0x7E, 0xC0, 0xC1, 0xC2, 0xC3, 0xC4, 0xC5, 0xC6, 0xC7]], true, 2) := by decide

/-- 95_test_vectors.md §2.3: after acceptance of CONFIGURE, STATUS = 0x101. -/
theorem test_configure_accepted : after (memWrite 0x00 0x00000008 0xF base) (fun t => (statusWord t, t.trace)) =
    some (0x101, []) := by decide

/-- R198: `rx`. -/
theorem test_rx : after (exec .rx base) (fun t => txnsOf t.trace) = some [[0x34]] := by decide

/-- 95_test_vectors.md §2.3: `tx 3`. -/
theorem test_tx : after (exec (.tx 3) (loaded [0x41, 0x42, 0x43])) (fun t => txnsOf t.trace) =
    some [[0x36], [0x3B], [0x3F, 0x03], [0x7F, 0x41, 0x42, 0x43], [0x35]] := by decide

/-- 95_test_vectors.md §2.3: `tx 5` with only word 0 written faults. -/
theorem test_tx_fault : faultOf (exec (.tx 5) (loaded [0x48, 0x45, 0x4C, 0x4C])) = some .unwrittenTxByte := by decide

/-- R234: the worked example of READ_PKT. -/
theorem test_readPkt :
    after (exec (.readPkt 4) (answering [0x06, 0x10, 0x11, 0x12, 0x13, 0x14, 0x15, 0xB0, 0x9A]))
      (fun t => (rxInfoWord t, t.mem, (txnsOf t.trace).length)) =
      some (0x304, [(0x80, 0x10), (0x81, 0x11), (0x82, 0x12), (0x83, 0x13)], 9) := by decide

/-- 95_test_vectors.md §2.4, V7: CRC-OK clear, and the copied bytes stay in RXBUF. -/
theorem test_readPkt_crc :
    after (exec (.readPkt 2) (answering [0x03, 0xAA, 0xBB, 0xCC, 0x00, 0x7F])) (fun t => (rxInfoWord t, t.mem)) =
      some (0x200, [(0x80, 0xAA), (0x81, 0xBB)]) := by decide

/-- R252: `rdrssi` answered 0xC8. -/
theorem test_readRssi :
    after (exec .readRssi (answering [0xC8])) (fun t => (txnsOf t.trace, t.rssiRaw, rssiDbmWord t, t.rdata)) =
      some ([[0xF4, 0x00]], 0xC8, 0xFFFFFF9A, 0x00) := by decide

/-- 95_test_vectors.md §2.5: `decrssi 129`. -/
theorem test_decodeRssi : after (exec (.decodeRssi 129) base) (fun t => (txnsOf t.trace, t.rssiRaw, rssiDbmWord t)) =
    some ([], 0x81, 0xFFFFFF77) := by decide

/-- 95_test_vectors.md §1.1, with the entry for 128 as R260 corrects it. -/
theorem test_rssi_table :
    rssiDecode 0 = -74 ∧ rssiDecode 50 = -49 ∧ rssiDecode 100 = -24 ∧ rssiDecode 127 = -11 ∧ rssiDecode 128 = -138 ∧
      rssiDecode 200 = -102 ∧ rssiDecode 255 = -74 := by decide

/-! ## The host window (95_test_vectors.md §2.6) -/

/-- W3: RSSI_DBM after reset. -/
theorem test_read_rssi_dbm_after_reset : after (memRead 0x14 base) (fun t => t.hRdata) = some 0xFFFFFFB6 := by decide

/-- W6: a TXBUF word is stored little-endian. -/
theorem test_write_txbuf : after (memWrite 0x40 0x44332211 0xF base) (fun t => t.mem) =
    some [(0x40, 0x11), (0x41, 0x22), (0x42, 0x33), (0x43, 0x44)] := by decide

/-- W8: a TXBUF write while BUSY is rejected. -/
theorem test_write_txbuf_busy : after (memWrite 0x40 0 0xF running) (fun t => (t.err, t.errCode, t.mem, t.hErr)) =
    some (true, .busyCollision, [], false) := by decide

/-- W10, W11 and W12: the write-1-to-clear flags of STATUS. -/
theorem test_status_w1c :
    let s : State := { base with done := true, err := true, errCode := .badLength }
    statusWord s = 0x56 ∧ after (memWrite 0x04 0x2 0xF s) statusWord = some 0x54 ∧
      after (memWrite 0x04 0x4 0xF { s with done := false }) statusWord = some 0x00 ∧
      after (memWrite 0x04 0xFFFFFFF9 0xF { s with lifecycle := .ready, configOk := true }) statusWord = some 0x656 := by decide

/-- W13 and W14: illegal accesses. -/
theorem test_illegal_access :
    faultOf (memRead 0x06 base) = some .illegalHostAccess ∧ faultOf (memWrite 0x40 0 0x1 base) = some .illegalHostAccess := by
  decide

/-- R96, R97: under WAIT_SO_LOW a high MISO level holds the sequencer once, and the strobe then goes out. -/
theorem test_waits_for_so_low :
    after (exec (.strobe 0x36) { base with params := { params with waitSoLow := true }, soLevel := { queue := [true, false], drawn := 0 } })
      (fun t => (txnsOf t.trace, t.soLevel.drawn)) = some ([[0x36]], 2) := by decide

/-! ## What the statements assume can be met

Each theorem shows a state and operands that meet all the hypotheses of the statement it is named after. -/

/-- A machine that may take a command, with no MISO-low wait that holds: for READ_REG, READ_STATUS, WRITE_REG, RX, READ_RSSI
and DECODE_RSSI, and for every other command's hypotheses on the machine alone. -/
theorem test_meets_ready_and_soFree : base.Ready ∧ State.reset.Ready ∧ base.SoFree 1 ∧ base.SoFree 67 :=
  ⟨⟨rfl, rfl⟩, ⟨rfl, rfl⟩, .inl rfl, .inl rfl⟩

/-- The same under WAIT_SO_LOW, with 67 low levels to come. -/
theorem test_meets_soFree_by_levels :
    let s : State :=
      { base with params := { params with waitSoLow := true }, soLevel := { queue := List.replicate 67 false, drawn := 0 } }
    s.Ready ∧ s.SoFree 67 := ⟨⟨rfl, rfl⟩, .inr (by decide)⟩

theorem test_meets_StrobeSendsItsOpcode : base.Ready ∧ (Instr.strobe 0x30).wf = true ∧ base.SoFree 1 :=
  ⟨⟨rfl, rfl⟩, by decide, .inl rfl⟩

theorem test_meets_DecodeOfEncodeIsTheCommand : (Instr.strobe 0x3D).wf = true ∧ (Instr.writeBurst 0x3F 64).wf = true ∧
    (Instr.tx 1).wf = true ∧ (Instr.tx 64).wf = true := by decide

theorem test_meets_EncodeOfDecodeIsTheWord : decode 0x4000000A = .cmd (.tx 64) := by decide

/-- A word for each clause, at the edge of its operands. -/
theorem test_meets_DecodeFollowsTheCheckOrder :
    (0x80003701#32 &&& 0xFFFF00FF#32 ≠ 0x00000001#32) ∧ (0x00003D01#32 &&& 0xFFFF00FF#32 = 0x00000001#32) ∧
      (0x00003F02#32 &&& 0xFFFFC0FF#32 = 0x00000002#32) ∧ (0x00003F03#32 &&& 0xFFFFC0FF#32 = 0x00000003#32) ∧
      (0x00FF3F04#32 &&& 0xFF00C0FF#32 = 0x00000004#32) ∧ (0x41003F05#32 &&& 0x80FFC0FF#32 = 0x00000005#32) ∧
      (0x4100000A#32 &&& 0x80FFFFFF#32 = 0x0000000A#32) ∧ (0x00FF000B#32 &&& 0xFF00FFFF#32 = 0x0000000B#32) ∧
      (0x00FF000D#32 &&& 0xFF00FFFF#32 = 0x0000000D#32) := by decide

/-- A busy machine, for BusyWritesAreRejected and BusyCommandIsTurnedAway. -/
theorem test_meets_busy : running.busy = true ∧ running.rstN = true := by decide

/-- RX's clauses: a machine ready for it, a busy one, and words of its OP, with no other bit set and with the highest (R197). -/
theorem test_meets_RxSendsTheEnterRxStrobe :
    base.Ready ∧ running.busy = true ∧ (0x00000009#32).extractLsb' 0 4 = 0x9 ∧ decode 0x00000009 = .cmd .rx ∧
      (0x80000009#32).extractLsb' 0 4 = 0x9 ∧ decode 0x80000009 = .reject .reservedField :=
  ⟨test_meets_ready_and_soFree.1, by decide, by decide, by decide, by decide, by decide⟩

theorem test_meets_RejectedWordOnlySetsErr : base.busy = false ∧ decode 0x4100000A = .reject .badLength := by decide

theorem test_meets_AcceptedWordStartsTheCommand :
    base.busy = false ∧ decode 0x00000008 = .cmd .configure ∧ decode 0x0100000A = .cmd (.tx 1) := by decide

/-- Both ways in which ERR may be cleared. -/
theorem test_meets_ErrIsClearedOnlyByTheHostOrReset :
    (let s : State := { base with err := true, errCode := .illegalOp, agenda := [.write 0x04 0x4 0xF] };
      s.err = true ∧ after (step s) (fun t => t.err) = some false) ∧
    (let s : State := { base with err := true, errCode := .illegalOp, agenda := [.resetLow 0] };
      s.err = true ∧ after (step s) (fun t => (t.err, t.rstN)) = some (false, false)) := by decide

/-- Offsets and strobes at the edges of the clauses on legal and illegal accesses. -/
theorem test_meets_access_clauses :
    (0x01#8).toNat % 4 ≠ 0 ∧ (0xFF#8).toNat % 4 ≠ 0 ∧ (0x7#4 ≠ 0xF#4) ∧ (0x00#8).toNat % 4 = 0 ∧ (0xFC#8).toNat % 4 = 0 := by
  decide

/-- Offsets at both ends of each clause of HostReadReturnsTheRegister, and a read that answers each. -/
theorem test_meets_HostReadReturnsTheRegister :
    (∀ off ∈ [0x00#8, 0x04#8, 0x08#8, 0x0C#8, 0x10#8, 0x14#8, 0x18#8, 0x3C#8, 0x40#8, 0x7C#8, 0x80#8, 0xBC#8, 0xC0#8, 0xFC#8],
      off.toNat % 4 = 0 ∧ (after (memRead off base) (fun t => t.hErr)) = some false) ∧
    ∀ pos w, base.seq ≠ .run .readPkt pos w := by
  refine ⟨by decide, fun pos w h => ?_⟩
  simp [base, State.reset] at h

/-- A READ_PKT that runs, with RXBUF[0] written before it and now. -/
theorem test_meets_RxbufReadDuringReadPktRaces :
    let s : State :=
      { base with busy := true, mem := [(0x80, 0x10)], seq := .run .readPkt [.complete .packet] (Work.start [(0x80, 0x00)]) }
    s.seq = .run .readPkt [.complete .packet] (Work.start [(0x80, 0x00)]) ∧
      memGet (Work.start [(0x80, 0x00)]).old (0x80 + 0) = some 0x00 ∧ memGet s.mem (0x80 + 0) = some 0x10 ∧
      (after (memRead 0x80 s) (fun t => t.hErr)) = some false := by decide

theorem test_meets_TxbufWriteStoresTheWord :
    after (memWrite (BitVec.ofNat 8 (0x40 + 4 * 15)) 0x44332211 0xF base) (fun t => memGet t.mem (txAddr 63)) = some (some 0x44) ∧
      base.busy = false := by decide

/-- Offsets at the edges of what OtherHostWritesAreIgnored covers. -/
theorem test_meets_OtherHostWritesAreIgnored :
    ∀ off ∈ [0x08#8, 0x3C#8, 0x80#8, 0xFC#8], off.toNat % 4 = 0 ∧ off ≠ 0x00 ∧ off ≠ 0x04 ∧
      ¬(0x40 ≤ off.toNat ∧ off.toNat ≤ 0x7C) := by decide

/-- No byte and 64 written bytes. -/
theorem test_meets_WriteBurstSendsTxbuf :
    (base.Ready ∧ (0#7).toNat ≤ 64 ∧ base.TxWritten (0#7).toNat ∧ base.SoFree 1) ∧
      let s := loaded (List.replicate 64 0x77)
      s.Ready ∧ (64#7).toNat ≤ 64 ∧ s.TxWritten (64#7).toNat ∧ s.SoFree 1 :=
  ⟨⟨⟨rfl, rfl⟩, by decide, (txWritten_iff _ _).mp (by decide), .inl rfl⟩, ⟨rfl, rfl⟩, by decide,
    (txWritten_iff _ _).mp (by decide), .inl rfl⟩

/-- One byte and 64 written bytes. -/
theorem test_meets_TxSendsTheFramedPacket :
    (let s := loaded [0xA5];
      s.Ready ∧ 1 ≤ (1#7).toNat ∧ (1#7).toNat ≤ 64 ∧ s.TxWritten (1#7).toNat ∧ s.SoFree 5) ∧
      let s := loaded (List.replicate 64 0x77)
      s.Ready ∧ 1 ≤ (64#7).toNat ∧ (64#7).toNat ≤ 64 ∧ s.TxWritten (64#7).toNat ∧ s.SoFree 5 :=
  ⟨⟨⟨rfl, rfl⟩, by decide, by decide, (txWritten_iff _ _).mp (by decide), .inl rfl⟩, ⟨rfl, rfl⟩, by decide, by decide,
    (txWritten_iff _ _).mp (by decide), .inl rfl⟩

/-- A payload of 5 bytes of which four are written. -/
theorem test_meets_UnwrittenTxByteFaults :
    (loaded [0x48, 0x45, 0x4C, 0x4C]).Ready ∧ (5#7).toNat ≤ 64 ∧ ¬(loaded [0x48, 0x45, 0x4C, 0x4C]).TxWritten (5#7).toNat := by
  refine ⟨⟨rfl, rfl⟩, by decide, ?_⟩
  rw [← txWritten_iff]
  decide

theorem test_meets_ConfigureAppliesTheProfile :
    base.Ready ∧ base.params.profile.length = 30 ∧ (∀ e ∈ base.params.profile, e.top = 0) ∧ base.params.patable.length = 8 ∧
      base.SoFree 32 := ⟨⟨rfl, rfl⟩, rfl, by decide, rfl, .inl rfl⟩

/-- A profile too short, one with a header bit in an index, and a power table too short. -/
theorem test_meets_ConfigureRefusesTablesOutsideTheirDomain :
    (base.rstN = true ∧ base.busy = false) ∧ refusalOf (exec .configure { base with params := { params with profile := params.profile.take 29 } }) =
        some .profileOutsideDomain ∧
      refusalOf (exec .configure
        { base with params := { params with profile := (params.profile.take 29) ++ [{ top := 1, index := 0, value := 0 }] } }) =
        some .profileOutsideDomain ∧
      refusalOf (exec .configure { base with params := { params with patable := params.patable.take 7 } }) =
        some .patableOutsideDomain := by decide

/-- Malformed lengths at both edges: 0, 65 and 255. -/
theorem test_meets_ReadPktMalformedLengthFlushes :
    ((answering [0x00]).Ready ∧ (answering [0x00]).SoFree 2 ∧ ((answering [0x00]).misoAt 1).toNat = 0) ∧
      ((answering [0x41]).Ready ∧ (answering [0x41]).SoFree 2 ∧ ((answering [0x41]).misoAt 1).toNat > 64) ∧
      (answering [0xFF]).Ready ∧ (answering [0xFF]).SoFree 2 ∧ ((answering [0xFF]).misoAt 1).toNat > 64 :=
  ⟨⟨⟨rfl, rfl⟩, .inl rfl, by decide⟩, ⟨⟨rfl, rfl⟩, .inl rfl, by decide⟩, ⟨rfl, rfl⟩, .inl rfl, by decide⟩

/-- Lengths 1 and 64, with the CRC-OK bit set and clear. -/
theorem test_meets_ReadPktDrainsOnePacket :
    (let s := answering [0x01, 0x5C, 0x00, 0x80];
      s.Ready ∧ s.SoFree 67 ∧ (s.misoAt 1).toNat = 1 ∧ (s.misoAt (2 * 1 + 5)).getLsbD 7 = true) ∧
    let s := answering ([0x40] ++ List.replicate 64 0x77 ++ [0x00, 0x7F])
    s.Ready ∧ s.SoFree 67 ∧ (s.misoAt 1).toNat = 64 ∧ (s.misoAt (2 * 64 + 5)).getLsbD 7 = false :=
  ⟨⟨⟨rfl, rfl⟩, .inl rfl, by decide, by decide⟩, ⟨rfl, rfl⟩, .inl rfl, by decide, by decide⟩

/-- A packet of two bytes sent and looped back. -/
theorem test_meets_TransmittedPacketIsRecovered :
    let s₁ := loaded [0xDE, 0xAD]
    let s₂ := answering [0x02, 0xDE, 0xAD, 0xC8, 0x85]
    (s₁.Ready ∧ s₁.TxWritten (2#7).toNat ∧ s₁.SoFree 5 ∧
      after (exec (.tx 2) s₁) (fun t => fifoWrites none (t.trace.drop s₁.trace.length)) = some [0x02, 0xDE, 0xAD]) ∧
    s₂.Ready ∧ s₂.SoFree 67 ∧ (2#7).toNat ≤ (2#8).toNat ∧
      (∀ j < 3, s₂.misoAt (2 * j + 1) = [0x02#8, 0xDE#8, 0xAD#8].getD j 0) ∧ (s₂.misoAt (2 * 3 + 3)).getLsbD 7 = true :=
  ⟨⟨⟨rfl, rfl⟩, (txWritten_iff _ _).mp (by decide), .inl rfl, by decide⟩, ⟨rfl, rfl⟩, .inl rfl, by decide, by decide, by decide⟩

set_option maxRecDepth 8000 in
/-- Commands that answer a state, for the counts of their transactions (95_test_vectors.md §2.3 and §2.4). -/
theorem test_meets_CompositeCommandsCountTheirTransactions :
    (base.Ready ∧ base.SoFree 67 ∧ base.params.profileLegal = true ∧ base.params.patableLegal = true) ∧
      after (exec (.readPkt 64) (answering [0x41])) (fun t => transactionCount t.trace) = some 2 ∧
      after (exec (.tx 1) (loaded [0xA5])) (fun t => (transactionCount t.trace, byteCount t.trace)) = some (5, 7) ∧
      after (exec .configure base) (fun t => (transactionCount t.trace, byteCount t.trace)) = some (32, 70) :=
  ⟨⟨⟨rfl, rfl⟩, .inl rfl, by decide, by decide⟩, by decide, by decide, by decide⟩

/-- A command line as the next move, by itself and as `withFetchWord` places it. -/
theorem test_meets_StepRunsTheDecodedCommand :
    (let s : State := { base with agenda := [.command 0x00000009] };
      s.rstN = true ∧ s.busy = false ∧ s.agenda = [.command 0x00000009] ∧ decode 0x00000009 = .cmd .rx) ∧
    decodeTableWord 32 0x00C8000D = some (.decodeRssi 200) ∧
    after (step (base.withFetchWord 32 0x00C8000D)) (fun t => (t.rssiRaw, t.agenda)) = some (0xC8, [.waitIdle]) := by decide

/-- A command that answers a state, and the same by single steps, with a move to come after them. -/
theorem test_meets_SequencerStepsReachExec :
    let s : State := { base with hErr := true, agenda := [.clock] }
    (s.rstN = true ∧ s.busy = false) ∧ decode 0x00C8000D = .cmd (.decodeRssi 200) ∧
      after (exec (.decodeRssi 200) { s with hErr := false }) (fun t => t.rssiRaw) = some 0xC8 ∧
      (match memWrite 0x00 0x00C8000D 0xF s with
        | .next a =>
          after (Host.Core.run Sys2Proof.core 1 { a with agenda := [.sequencer, .clock] }) (fun t : State => (t.rssiRaw, t.agenda))
        | _ => none) = some (0xC8, [.clock]) := by decide

/-- A sequencer at the MISO-low wait, under a high and under a low level. -/
theorem test_meets_MisoLowWaitHoldsTheSequencer :
    let s (b : Bool) : State :=
      { base with busy := true, csN := false, soLevel := { queue := [b], drawn := 0 },
                  seq := .run .rx [.waitSo, .csHigh, .complete .plain] (Work.start []) }
    (s true).soAt 0 = true ∧ (s false).soAt 0 = false ∧
      after (seqStep (s true)) (fun t => t.seq) = some (.run .rx [.waitSo, .csHigh, .complete .plain] (Work.start [])) ∧
      after (seqStep (s false)) (fun t => t.seq) = some (.run .rx [.csHigh, .complete .plain] (Work.start [])) := by decide

/-- A sequencer at the start and at the end of a delay: 100 ms at 1 MHz load 100000. -/
theorem test_meets_DelayLoadsAndEmptiesTheCounter :
    let s : State := { base with busy := true, seq := .run .tx [.delayStart .tx, .delayEnd .tx, .complete .plain] (Work.start []) }
    after (seqStep s) (fun t => (t.dcnt, t.seq)) =
        some (100000, .run .tx [.delayEnd .tx, .complete .plain] (Work.start [])) ∧
      after (seqStep { s with seq := .run .tx [.delayEnd .tx, .complete .plain] (Work.start []) }) (fun t => (t.dcnt, t.seq)) =
        some (0, .run .tx [.complete .plain] (Work.start [])) := by decide

/-- A busy machine whose step is no reset: a TXBUF write while BUSY. -/
theorem test_meets_TxbufIsStableWhileBusy :
    let s : State := { running with mem := [(0x40, 0x11)], agenda := [.write 0x40 0x99 0xF] }
    s.busy = true ∧ after (step s) (fun t => (t.rstN, t.mem)) = some (true, [(0x40, 0x11)]) := by decide

/-- Both ways in which BUSY ends: `Complete()` and reset. -/
theorem test_meets_BusyEndsOnlyByCompleteOrReset :
    after (step { running with seq := .run .strobe [.complete .plain] (Work.start []) }) (fun t => (t.busy, t.done)) =
        some (false, true) ∧
      after (step { running with agenda := [.resetLow 0] }) (fun t => (t.busy, t.rstN)) = some (false, false) := by decide

theorem test_meets_IdleMachineDoesNothing : base.agenda = [] ∧ base.rstN = true ∧ base.seq = .idle := by decide

/-- W17 and R301: reset in the middle of a transaction, and of a byte: three SCLK cycles and a rising edge of it are seen. -/
theorem test_meets_ResetTakesEffectAtOnce :
    let s (k : Fin 24) : State :=
      { answering [] with
        csN := false, mosi := true, trace := [.csFall], busy := true, miso := { queue := [0x0F], drawn := 0 },
        seq := .run .strobe [.xfer 0x34, .csHigh, .complete .plain] (Work.start []), agenda := [.resetLow k] }
    (s 11).agenda = [.resetLow 11] ∧ (s 11).rstN = true ∧
      after (step (s 0)) (fun t => (t.csN, t.mosi, t.trace, t.seq)) = some (true, false, [.csFall, .resetFall], .idle) ∧
      after (step (s 11)) (fun t => (t.csN, t.mosi, t.trace, t.seq)) =
        some (true, false, [.csFall, .xferCut 11 0x34 0x0F, .resetFall], .idle) ∧
      (BusEvent.wave true (.xferCut 11 0x34 0x0F)).map (fun p => (p.sclk, p.mosi)) =
        [(false, false), (true, false), (false, false), (false, false), (true, false), (false, false),
          (false, true), (true, true), (false, true), (false, true), (true, true)] := by decide

/-- A machine held in reset, with no move to come and with each kind of them. -/
theorem test_meets_HostAccessDuringResetHasNoMove :
    let s : State := { base with rstN := false }
    s.rstN = false ∧ after (step { s with agenda := [] }) (fun t => t.rstN) = some false ∧
      refusalOf (step { s with agenda := [.read 0x04] }) = some .hostAccessDuringReset ∧
      refusalOf (step { s with agenda := [.write 0x00 0 0xF] }) = some .hostAccessDuringReset ∧
      refusalOf (step { s with agenda := [.command 0x9] }) = some .hostAccessDuringReset ∧
      refusalOf (step { s with agenda := [.waitIdle] }) = some .hostAccessDuringReset ∧
      after (step { s with agenda := [.clock] }) (fun t => t.rstN) = some false ∧
      after (step { s with agenda := [.resetLow 5] }) (fun t => (t.rstN, t.trace)) = some (false, []) ∧
      after (step { s with agenda := [.resetHigh] }) (fun t => t.rstN) = some true := by decide

/-- The invariant's premise is met at reset, from which a step is taken. -/
theorem test_meets_EveryStepKeepsTheInvariant : State.reset.Inv ∧ after (step State.reset) (fun t => t.busy) = some false := by
  refine ⟨⟨by decide, ⟨rfl, rfl⟩, ⟨by decide, by decide, by decide, by decide, by decide, rfl⟩, fun h => ?_⟩, by decide⟩
  simp [State.reset] at h

/-- A step from a state of the invariant that changes RDATA, and the command at work in it. -/
theorem test_meets_StateChangesOnlyByItsOwnCommands :
    let s : State := { answering [0x5A] with agenda := [.command 0x00001202] }
    s.Inv ∧ after (step s) (fun t => (t.rstN, t.rdata)) = some (true, 0x5A) ∧ s.ActsBy .readReg := by
  refine ⟨⟨by decide, ⟨rfl, rfl⟩, ⟨by decide, by decide, by decide, by decide, by decide, rfl⟩, fun h => ?_⟩, by decide,
    .inr ⟨0x00001202, [], .readReg 0x12, .inr rfl, by decide, rfl⟩⟩
  simp [answering, base, State.reset] at h

/-- A machine with a command `i` accepted and no step of it made. -/
def started (i : Instr) (s : State) : State := accept i (bodyOf i) s

/-- A machine at reset but for its parameters meets the invariant with any command just accepted whose steps fit. -/
theorem started_inv (i : Instr) (p : Params) (hw : i.wf = true)
    (hf : posFits true (bodyOf i (capture i { State.reset with params := p })) = true)
    (ha : (bodyOf i (capture i { State.reset with params := p })).all (stepFits i.operation) = true) :
    (started i { State.reset with params := p }).Inv := by
  refine ⟨(by decide : Memory.wf State.reset.mem), ⟨rfl, rfl, hf, ha, Nat.zero_le _, i, hw, rfl, rfl, .inl (by cases i <;> rfl)⟩,
    ⟨?_, ?_, ?_, Nat.zero_le _, ?_, rfl⟩, fun h => ?_⟩
  · simp only [started, accept, capture]
    split <;> simp [State.reset]
  · simp only [started, accept, capture]
    split <;> simp [State.reset]
  · simp [started, accept, capture, State.reset]
  · simp [started, accept, capture, State.reset]
  · simp [started, accept, capture, State.reset] at h

set_option maxRecDepth 8000 in
/-- Each stop of a running machine, from a state of the invariant, and one that goes on. -/
theorem test_meets_RunningMachineOnlyStopsAtACommandsStart :
    (State.reset.Inv ∧ (started (.tx 1) base).Inv ∧ (started (.writeBurst 0x3F 2) base).Inv ∧
      (started .configure { State.reset with params := { params with profile := [] } }).Inv ∧
      (started .configure { State.reset with params := { params with patable := [] } }).Inv) ∧
    (started (.tx 1) base).agenda = [] ∧
      faultOf (step (started (.tx 1) base)) = some .unwrittenTxByte ∧
      faultOf (step (started (.writeBurst 0x3F 2) base)) = some .unwrittenTxByte ∧
      refusalOf (step (started .configure { base with params := { params with profile := [] } })) = some .profileOutsideDomain ∧
      refusalOf (step (started .configure { base with params := { params with patable := [] } })) = some .patableOutsideDomain ∧
      after (step running) (fun t => t.csN) = some false := by
  refine ⟨⟨test_meets_EveryStepKeepsTheInvariant.1, started_inv _ _ (by decide) (by decide) (by decide),
    started_inv _ _ (by decide) (by decide) (by decide), started_inv _ _ (by decide) (by decide) (by decide),
    started_inv _ _ (by decide) (by decide) (by decide)⟩, by decide, by decide, by decide, by decide, by decide, by decide⟩

end Sys2Proof.Tests
end

section
/-! PROOF. The scope family: CONFIGURE's refusals of tables outside R12 (R278), and the delay counter (R55, R285). -/

namespace Sys2Proof.Machine

/-! ## Tables outside their domain (R12, R278) -/

theorem Params.profileLegal_iff (p : Params) :
    p.profileLegal = true ↔ p.profile.length = 30 ∧ ∀ e ∈ p.profile, e.top = 0 := by
  simp [Params.profileLegal, profileLen]

theorem Params.patableLegal_iff (p : Params) : p.patableLegal = true ↔ p.patable.length = 8 := by
  simp [Params.patableLegal, patableLen]

/-- A command whose first step is refused is refused, when the host may issue it and its operands are in range. -/
theorem runCommand_refused {i : Instr} {body : State → List MicroOp} {s : State} {r : Refusal} (h : s.Ready)
    (hi : operandCheck i = none) (hg : seqStep (accept i body s) = .refused r) : runCommand i body s = .refused r := by
  obtain ⟨hr, hb⟩ := h
  simp [runCommand, hr, hb, hi, hg]

/-- CONFIGURE's check of its tables looks at PROFILE first (R278). -/
theorem seqStep_needTables {s : State} {op : Operation} {rest : List MicroOp} {w : Work}
    (hs : s.seq = .run op (.needTables :: rest) w) :
    seqStep s =
      if s.params.profileLegal then
        if s.params.patableLegal then .next (seqAdvance s) else .refused .patableOutsideDomain
      else .refused .profileOutsideDomain := by
  simp only [seqStep, hs]

/-- Settles O28: CONFIGURE's first step is the check of its tables. -/
theorem configureRefusesTablesOutsideTheirDomain : Obligations.ConfigureRefusesTablesOutsideTheirDomain := by
  unfold Obligations.ConfigureRefusesTablesOutsideTheirDomain
  intro s h
  rw [exec_eq_runCommand]
  refine ⟨fun hbad => ?_, fun hlen htop hpat => ?_⟩
  · have hp : ¬s.params.profileLegal = true := by
      rw [Params.profileLegal_iff]
      rintro ⟨hlen, htop⟩
      obtain hne | ⟨e, he, hne⟩ := hbad
      · exact hne hlen
      · exact hne (htop e he)
    exact runCommand_refused h rfl ((seqStep_needTables rfl).trans (if_neg hp))
  · have hp : s.params.profileLegal = true := (Params.profileLegal_iff _).mpr ⟨hlen, htop⟩
    have ht : ¬s.params.patableLegal = true := mt (Params.patableLegal_iff _).mp hpat
    exact runCommand_refused h rfl ((seqStep_needTables rfl).trans ((if_pos hp).trans (if_neg ht)))

/-! ## Delays (R10, R55, R285) -/

/-- The length of a delay in microseconds (R10). -/
def delayUs (p : Params) : DelayName → Nat
  | .settle => p.settleDelayUs
  | .tx => p.txDelayUs

theorem delayCycles_eq (p : Params) (d : DelayName) : delayCycles p d = (delayUs p d * p.clkHz + 999999) / 1000000 := by
  cases d <;> rfl

/-- DCNT's load is the least count of clocks that is no shorter than the delay (R55). -/
theorem delayCycles_isCeil (p : Params) (d : DelayName) :
    delayUs p d * p.clkHz ≤ delayCycles p d * 1000000 ∧
      delayCycles p d * 1000000 < delayUs p d * p.clkHz + 1000000 := by
  rw [delayCycles_eq]
  omega

/-- SETTLE_DELAY is at least 10 ms (R10). -/
theorem le_delayUs_settle (p : Params) : 10000 ≤ delayUs p .settle := Nat.le_add_right _ _

/-- A step that is no check makes its effect after the clock edge. -/
theorem seqStep_eq_microStep {s : State} {op : Operation} {m : MicroOp} {rest : List MicroOp} {w : Work}
    (hs : s.seq = .run op (m :: rest) w) (h1 : ∀ n, m ≠ .needTx n) (h2 : m ≠ .needTables) :
    seqStep s = .next (microStep op m rest w (clockEdge s)) := by
  simp only [seqStep_eq_next hs h1 h2, seqAdvance, hs]

/-- Settles O44: the two steps of a delay, and the rounding up of DCNT's load. -/
theorem delayLoadsAndEmptiesTheCounter : Obligations.DelayLoadsAndEmptiesTheCounter := by
  unfold Obligations.DelayLoadsAndEmptiesTheCounter
  intro s op d rest w
  refine ⟨fun hs => ?_, fun hs => ?_⟩
  · obtain ⟨hge, hlt⟩ := delayCycles_isCeil s.params d
    refine ⟨_, delayUs s.params d, seqStep_eq_microStep hs (by simp) (by simp), ?_, ?_, hge, hlt, rfl, rfl, rfl⟩
    · cases d <;> rfl
    · rintro rfl
      exact le_delayUs_settle s.params
  · exact ⟨_, seqStep_eq_microStep hs (by simp) (by simp), rfl, rfl, rfl, rfl⟩

end Sys2Proof.Machine
end

section
/-! PROOF. The state family: the invariant of the machine, at reset and under every step (R35, R37 to R39, R42, R45, R51, R52,
R98, R229, R300). Each operation of the model keeps it, once; `step_cases` puts the operations together. -/

namespace Sys2Proof.Machine

/-! ## The expansions are made of segments (R51, R95, R98) -/

/-- Steps of the operation `op` that begin and end with chip-select high, and that leave the end of the expansion to the steps
after them. -/
def IsSegment (op : Operation) (xs : List MicroOp) : Prop :=
  xs.all (stepFits op) = true ∧ ∀ rest, posFits true (xs ++ rest) = posFits true rest

/-- Steps of the operation `op` that fit a high chip-select up to the last one. -/
def IsExpansion (op : Operation) (pos : List MicroOp) : Prop := posFits true pos = true ∧ pos.all (stepFits op) = true

theorem IsSegment.append {op : Operation} {xs ys : List MicroOp} (hx : IsSegment op xs) (hy : IsSegment op ys) :
    IsSegment op (xs ++ ys) := by
  refine ⟨by rw [List.all_append, hx.1, hy.1]; rfl, fun rest => ?_⟩
  rw [List.append_assoc, hx.2, hy.2]

theorem IsSegment.cons {op : Operation} {m : MicroOp} {xs : List MicroOp} (hm : IsSegment op [m]) (hx : IsSegment op xs) :
    IsSegment op (m :: xs) := hm.append hx

theorem isSegment_flatten {op : Operation} {l : List (List MicroOp)} (h : ∀ xs ∈ l, IsSegment op xs) :
    IsSegment op l.flatten := by
  induction l with
  | nil => exact ⟨rfl, fun _ => rfl⟩
  | cons xs l ih => exact (h xs (by simp)).append (ih fun ys hy => h ys (by simp [hy]))

/-- Exchanges keep chip-select low. -/
theorem posFits_exchanges {xs : List MicroOp} (hx : ∀ x ∈ xs, (∃ b, x = .xfer b) ∨ ∃ i, x = .xferTx i)
    (rest : List MicroOp) : posFits false (xs ++ rest) = posFits false rest := by
  induction xs with
  | nil => rfl
  | cons x xs ih =>
    obtain ⟨b, rfl⟩ | ⟨i, rfl⟩ := hx x (by simp)
    · exact ih fun y hy => hx y (by simp [hy])
    · exact ih fun y hy => hx y (by simp [hy])

/-- A transaction is a segment of every operation that has transactions (R95). -/
theorem isSegment_spiTxn {op : Operation} (hop : op ≠ .decodeRssi) (p : Params) {xs : List MicroOp}
    (hx : ∀ x ∈ xs, (∃ b, x = .xfer b) ∨ ∃ i, x = .xferTx i) (hf : xs.all (stepFits op) = true) :
    IsSegment op (spiTxn p xs) := by
  have edge : (op != .decodeRssi) = true := by simpa using hop
  refine ⟨?_, fun rest => ?_⟩
  · cases hw : p.waitSoLow <;> simp [spiTxn, hw, stepFits, edge, hf, -List.all_eq_true]
  · have h := posFits_exchanges hx (.csHigh :: rest)
    cases hw : p.waitSoLow <;> simp [spiTxn, hw, posFits, h]

theorem isSegment_spiBytes {op : Operation} (hop : op ≠ .decodeRssi) (p : Params) (bs : List Byte) :
    IsSegment op (spiBytes p bs) :=
  isSegment_spiTxn hop p (by simp) (by simpa [stepFits] using fun _ _ => hop)

theorem isSegment_writeBurstTxbuf {op : Operation} (hop : op = .writeBurst ∨ op = .tx) (p : Params) (a : Index) (n : Nat) :
    IsSegment op (writeBurstTxbuf p a n) := by
  have hne : op ≠ .decodeRssi := by rintro rfl; simp at hop
  refine isSegment_spiTxn hne p (by simp) ?_
  simp only [List.all_cons, List.all_map, Bool.and_eq_true, List.all_eq_true]
  exact ⟨by simpa [stepFits] using hne, fun i _ => by simpa [stepFits] using hop⟩

/-- A segment and then `Complete()` (R42). -/
theorem IsSegment.complete {op : Operation} {xs : List MicroOp} {c : Completion} (h : IsSegment op xs)
    (hc : completes op c = true) : IsExpansion op (xs ++ [.complete c]) :=
  ⟨by rw [h.2]; rfl, by simp only [List.all_append, h.1, List.all_cons, List.all_nil, stepFits, hc]; rfl⟩

/-- The expansion of a command fits its operation and the pins it starts with (R51, R98). -/
theorem isExpansion_bodyOf (i : Instr) (s : State) : IsExpansion i.operation (bodyOf i s) := by
  have one : ∀ (op : Operation) (bs : List Byte) (c : Completion), op ≠ .decodeRssi → completes op c = true →
      IsExpansion op (spiBytes s.params bs ++ [.complete c]) := fun op bs c hop hc =>
    (isSegment_spiBytes hop s.params bs).complete hc
  cases i with
  | strobe opcode => exact one .strobe _ _ (by decide) rfl
  | readReg index => exact one .readReg _ _ (by decide) rfl
  | readStatus index => exact one .readStatus _ _ (by decide) rfl
  | writeReg index value => exact one .writeReg _ _ (by decide) rfl
  | rx => exact one _ _ _ (by decide) rfl
  | readRssi => exact one _ _ _ (by decide) rfl
  | decodeRssi raw => exact ⟨rfl, rfl⟩
  | writeBurst index count =>
    have check : IsSegment .writeBurst [.needTx (curCount s)] := ⟨rfl, fun _ => rfl⟩
    exact (check.cons (isSegment_writeBurstTxbuf (.inl rfl) s.params (curIndex s) (curCount s))).complete rfl
  | configure =>
    have check : IsSegment .configure [.needTables] := ⟨rfl, fun _ => rfl⟩
    have settle : IsSegment .configure [.delayStart .settle, .delayEnd .settle] := ⟨rfl, fun _ => rfl⟩
    have txn : ∀ bs, IsSegment .configure (spiBytes s.params bs) := isSegment_spiBytes (by decide) s.params
    have entries : IsSegment .configure (s.params.profile.map (fun e => spiBytes s.params [e.addr, e.value])).flatten :=
      isSegment_flatten (by simpa using fun e (_ : e ∈ s.params.profile) => txn [e.addr, e.value])
    exact ((((check.cons (txn [0x30])).append settle).append entries).append
      (txn (burstHeader patableAddr :: s.params.patable))).complete rfl
  | tx length =>
    have check : IsSegment .tx [.needTx (curCount s)] := ⟨rfl, fun _ => rfl⟩
    have delay : IsSegment .tx [.delayStart .tx, .delayEnd .tx] := ⟨rfl, fun _ => rfl⟩
    have txn : ∀ bs, IsSegment .tx (spiBytes s.params bs) := isSegment_spiBytes (by decide) s.params
    have burst := isSegment_writeBurstTxbuf (.inr rfl) s.params fifoAddr (curCount s)
    have h := (((((check.cons (txn [0x36])).append (txn [0x3B])).append
      (txn [writeHeader fifoAddr, BitVec.ofNat 8 (curCount s)])).append burst).append (txn [0x35])).append delay
    simpa [bodyOf, bodyTx, strobeTxn, writeRegisterTxn, Instr.operation] using h.complete (c := .plain) rfl
  | readPkt capacity =>
    have read := isSegment_spiBytes (op := .readPkt) (by decide) s.params [readHeader fifoAddr, s.params.dummyByte]
    exact ⟨(read.2 [.pktLength]).trans rfl, by
      simp only [bodyOf, bodyReadPkt, fifoRead, readRegisterTxn, List.all_append, Instr.operation, read.1]; rfl⟩

/-- READ_PKT's steps after a malformed length (R224). -/
theorem isExpansion_packetFlush (p : Params) : IsExpansion .readPkt (packetFlush p) :=
  (isSegment_spiBytes (by decide) p [0x3A]).complete rfl

/-- READ_PKT's steps after a well-formed length (R220). -/
theorem isExpansion_packetTail (p : Params) (len k : Nat) : IsExpansion .readPkt (packetTail p len k) := by
  have read : IsSegment .readPkt (fifoRead p) := isSegment_spiBytes (by decide) p _
  have store : IsSegment .readPkt [.rxStore] := ⟨rfl, fun _ => rfl⟩
  have latch : IsSegment .readPkt [.latchLqi] := ⟨rfl, fun _ => rfl⟩
  have copies : IsSegment .readPkt (List.replicate k (fifoRead p ++ [.rxStore])).flatten :=
    isSegment_flatten fun xs hx => List.eq_of_mem_replicate hx ▸ read.append store
  have drops : IsSegment .readPkt (List.replicate (len - k) (fifoRead p)).flatten :=
    isSegment_flatten fun xs hx => List.eq_of_mem_replicate hx ▸ read
  have h := (((copies.append drops).append read).append read).append latch
  simpa [packetTail] using h.complete (c := .packet) rfl

/-! ## The parts of the invariant -/

theorem seqInv_idle_iff {s : State} (hs : s.seq = .idle) : s.SeqInv ↔ s.busy = false ∧ s.csN = true := by
  simp only [State.SeqInv, hs]

theorem seqInv_run_iff {s : State} {op : Operation} {pos : List MicroOp} {w : Work} (hs : s.seq = .run op pos w) :
    s.SeqInv ↔ s.busy = true ∧ s.done = false ∧ posFits s.csN pos = true ∧ pos.all (stepFits op) = true ∧ w.k ≤ maxPkt ∧
      s.CurInv op pos := by
  simp only [State.SeqInv, hs]

/-- `SeqInv` speaks of SEQ, BUSY, DONE, CS_N, CUR and the parameters only. -/
theorem seqInv_congr {s t : State} (h : s.SeqInv) (hseq : t.seq = s.seq) (hbusy : t.busy = s.busy) (hdone : t.done = s.done)
    (hcs : t.csN = s.csN) (hcur : t.cur = s.cur) (hp : t.params = s.params) : t.SeqInv := by
  cases hs : s.seq with
  | idle =>
    rw [seqInv_idle_iff hs] at h
    rwa [seqInv_idle_iff (hseq.trans hs), hbusy, hcs]
  | run op pos w =>
    obtain ⟨hb, hd, hfit, hops, hk, hc⟩ := (seqInv_run_iff hs).mp h
    exact (seqInv_run_iff (hseq.trans hs)).mpr
      ⟨hbusy.trans hb, hdone.trans hd, hcs ▸ hfit, hops, hk, curInv_congr hc hcur hp⟩

/-- While BUSY = 0 the sequencer is Idle and chip-select high (R35, R98). -/
theorem seqInv_of_not_busy {s : State} (h : s.SeqInv) (hb : s.busy = false) : s.seq = .idle ∧ s.csN = true := by
  cases hs : s.seq with
  | idle => exact ⟨rfl, ((seqInv_idle_iff hs).mp h).2⟩
  | run op pos w =>
    obtain ⟨hb', -⟩ := (seqInv_run_iff hs).mp h
    simp [hb] at hb'

/-- The invariant of a machine that is not in reset. -/
structure RunInv (s : State) : Prop where
  rstN : s.rstN = true
  mem : Memory.wf s.mem
  seq : s.SeqInv
  reg : s.RegInv

theorem RunInv.inv {s : State} (h : RunInv s) : s.Inv :=
  ⟨h.mem, h.seq, h.reg, fun hr => absurd hr (by simp [h.rstN])⟩

theorem runInv_of_inv {s : State} (h : s.Inv) (hr : s.rstN = true) : RunInv s := by
  obtain ⟨hmem, hseq, hreg, -⟩ := h
  exact ⟨hr, hmem, hseq, hreg⟩

/-- The invariant does not speak of the agenda, the streams, MOSI, the synchronisers, DCNT, RDATA, RSSI_RAW, the port's
outputs and the bus record. -/
theorem RunInv.unseen {s : State} (h : RunInv s) (agenda : List Move) (miso : Feed Byte) (soLevel : Feed Bool)
    (lines : Feed (Bool × Bool)) (ram : Feed Byte) (race : Feed Bool) (mosi : Bool) (gdo0 gdo2 : Sync) (rdata rssiRaw : Byte)
    (dcnt : Nat) (hRdata : Word) (hErr : Bool) (trace : List BusEvent) :
    RunInv { s with agenda, miso, soLevel, lines, ram, race, mosi, gdo0, gdo2, rdata, rssiRaw, dcnt, hRdata, hErr, trace } :=
  ⟨h.rstN, h.mem, seqInv_congr h.seq rfl rfl rfl rfl rfl rfl, h.reg⟩

/-! ## What a legal host write can do (R84, R86, R270) -/

/-- A host write is rejected with a code, accepts a command at CMD, clears flags at STATUS, stores a word of TXBUF, or has no
effect. -/
theorem writeEffect_cases (off : Nat) (w : Word) (s : State) :
    (∃ c, c ≠ Code.none ∧ writeEffect off w s = reject c s) ∨
    (off = 0x00 ∧ s.busy = false ∧ ∃ i, decode w = .cmd i ∧ writeEffect off w s = accept i (bodyOf i) s) ∨
    (off = 0x04 ∧ writeEffect off w s = writeStatus w s) ∨
    ((0x40 ≤ off ∧ off < 0x80) ∧ s.busy = false ∧ writeEffect off w s = { s with mem := storeWord s.mem off w }) ∨
    writeEffect off w s = s := by
  unfold writeEffect
  split_ifs with h0 h4 htx
  · unfold submit
    split
    · exact .inl ⟨_, by simp, rfl⟩
    · rename_i hb
      split
      · exact .inl ⟨_, decode_reject_ne_none ‹_›, rfl⟩
      · exact .inr (.inl ⟨h0, by simpa using hb, _, ‹_›, rfl⟩)
  · exact .inr (.inr (.inl ⟨h4, rfl⟩))
  · unfold writeTxbuf
    split
    · exact .inl ⟨_, by simp, rfl⟩
    · rename_i hb
      exact .inr (.inr (.inr (.inl ⟨htx, by simpa using hb, rfl⟩)))
  · exact .inr (.inr (.inr (.inr rfl)))

/-! ## Each operation keeps the invariant -/

theorem RunInv.setAgenda {s : State} (h : RunInv s) (rest : List Move) : RunInv { s with agenda := rest } := h.unseen ..

theorem RunInv.setHErr {s : State} (h : RunInv s) (e : Bool) : RunInv { s with hErr := e } := h.unseen ..

theorem RunInv.clockEdge {s : State} (h : RunInv s) : RunInv (clockEdge s) := h.unseen ..

theorem RunInv.answer {s : State} (h : RunInv s) (v : Word) : RunInv (answer v s) := h.unseen ..

theorem RunInv.drawBytes {s : State} (h : RunInv s) : RunInv (drawBytes s) := h.unseen ..

/-- A rejection has a code (R271), so ERRCODE and ERR agree (R37). -/
theorem RunInv.reject {s : State} (h : RunInv s) {c : Code} (hc : c ≠ .none) : RunInv (reject c s) := by
  obtain ⟨hl, hcfg, -, hx, hx0, hsclk⟩ := h.reg
  exact ⟨h.rstN, h.mem, seqInv_congr h.seq rfl rfl rfl rfl rfl rfl, hl, hcfg, by simp [hc], hx, hx0, hsclk⟩

/-- A host write to STATUS clears flags only (R36, R37). -/
theorem RunInv.writeStatus {s : State} (h : RunInv s) (w : Word) : RunInv (writeStatus w s) := by
  obtain ⟨hl, hcfg, herr, hx, hx0, hsclk⟩ := h.reg
  refine ⟨by simpa using h.rstN, by simpa using h.mem, ?_, by simpa using hl, by simpa using hcfg, ?_, by simpa using hx,
    by simpa using hx0, by simpa using hsclk⟩
  · cases hs : s.seq with
    | idle =>
      rw [seqInv_idle_iff (by simpa using hs)]
      simpa using (seqInv_idle_iff hs).mp h.seq
    | run op pos w' =>
      obtain ⟨-, hd, -⟩ := (seqInv_run_iff hs).mp h.seq
      exact seqInv_congr h.seq (by simp) (by simp) (by simp [hd]) (by simp) (by simp) (by simp)
  · rw [writeStatus_err, writeStatus_errCode]
    split
    · simp
    · exact herr

/-- A TXBUF write stays inside the buffers (R48). -/
theorem RunInv.storeTxWord {s : State} (h : RunInv s) (w : Word) {off : Nat} (ho : 0x40 ≤ off ∧ off < 0x80) :
    RunInv { s with mem := storeWord s.mem off w } :=
  ⟨h.rstN, storeWord_wf w h.mem (by omega), seqInv_congr h.seq rfl rfl rfl rfl rfl rfl, h.reg⟩

/-- Acceptance puts a well-formed command at the start of its expansion (R270). -/
theorem RunInv.accept {s : State} (h : RunInv s) (hb : s.busy = false) {i : Instr} (hi : operandCheck i = none) :
    RunInv (accept i (bodyOf i) s) := by
  obtain ⟨-, hcs⟩ := seqInv_of_not_busy h.seq hb
  obtain ⟨hfit, hops⟩ := isExpansion_bodyOf i (capture i s)
  obtain ⟨hl, hcfg, herr, hx, hx0, hsclk⟩ := h.reg
  refine ⟨h.rstN, h.mem, ?_, ?_, ?_, herr, hx, hx0, hsclk⟩
  · exact (seqInv_run_iff (accept_seq s i (bodyOf i))).mpr
      ⟨rfl, rfl, by simpa [hcs] using hfit, hops, Nat.zero_le _, i, (operandCheck_eq_none i).mp hi, rfl, rfl,
        .inl (bodyOf_congr i rfl rfl)⟩
  · rw [accept_lifecycle]
    split
    · simp
    · exact hl
  · rw [accept_lifecycle, accept_configOk]
    split
    · simp
    · exact hcfg

theorem RunInv.writeEffect {s : State} (h : RunInv s) (off : Nat) (w : Word) : RunInv (writeEffect off w s) := by
  obtain ⟨c, hc, e⟩ | ⟨-, hb, i, hd, e⟩ | ⟨-, e⟩ | ⟨ho, -, e⟩ | e := writeEffect_cases off w s <;> rw [e]
  · exact h.reject hc
  · exact h.accept hb (operandCheck_of_decode hd)
  · exact h.writeStatus w
  · exact h.storeTxWord w ho
  · exact h

/-! ## A sequencer step keeps the invariant -/

/-- The step `m` has been made: the sequencer stands at the steps after it, which fit the level of CS_N. -/
theorem RunInv.advance {s : State} {op : Operation} {m : MicroOp} {rest : List MicroOp} {w : Work} (h : RunInv s)
    (hs : s.seq = .run op (m :: rest) w) {csN : Bool} {mem : Memory} {w' : Work} (hfit : posFits csN rest = true)
    (hmem : Memory.wf mem) (hk : w'.k ≤ maxPkt) : RunInv { s with csN, mem, seq := .run op rest w' } := by
  obtain ⟨hbusy, hdone, -, hops, -, hcur⟩ := (seqInv_run_iff hs).mp h.seq
  rw [List.all_cons, Bool.and_eq_true] at hops
  exact ⟨h.rstN, hmem, (seqInv_run_iff rfl).mpr ⟨hbusy, hdone, hfit, hops.2, hk, curInv_rest hcur rfl⟩, h.reg⟩

/-- READ_PKT's decision puts steps of READ_PKT in place of the length check, and copies at most 64 bytes (R220, R224). -/
theorem RunInv.decideLength {s : State} {op : Operation} {rest : List MicroOp} {w : Work} (h : RunInv s)
    (hs : s.seq = .run op (.pktLength :: rest) w) : RunInv (decideLength op w s) := by
  obtain ⟨hbusy, hdone, hfit, hops, hk, i, hwf, hop, hcur, -⟩ := (seqInv_run_iff hs).mp h.seq
  obtain ⟨hcs, -⟩ := (Bool.and_eq_true _ _).mp hfit
  obtain rfl : op = .readPkt := by simpa [stepFits] using ((Bool.and_eq_true _ _).mp hops).1
  have decided : ∀ {pos : List MicroOp} {w' : Work}, IsExpansion .readPkt pos → noChecks pos = true → w'.k ≤ maxPkt →
      RunInv { s with seq := .run .readPkt pos w' } := fun {pos w'} he hn hk' =>
    ⟨h.rstN, h.mem, (seqInv_run_iff rfl).mpr ⟨hbusy, hdone, by simpa [hcs] using he.1, he.2, hk', i, hwf, hop, hcur, .inr hn⟩,
      h.reg⟩
  unfold Sys2Proof.Machine.decideLength
  dsimp only
  split
  · exact decided (isExpansion_packetFlush _) (noChecks_packetFlush _) hk
  · rename_i hm
    have hlen : w.last.toNat ≤ maxPkt := by
      have h64 : w.last.toNat ≠ 0 ∧ w.last.toNat ≤ maxPkt := by simpa [lengthMalformed] using hm
      exact h64.2
    exact decided (isExpansion_packetTail _ _ _) (noChecks_packetTail _ _ _) (min_le_of_left_le hlen)

/-- The result fields take values the spec gives them (R38, R39, R45, R229). -/
theorem regInv_writeResult {s : State} {w : Work} (h : s.RegInv) (hk : w.k ≤ maxPkt) (c : Completion) :
    (writeResult c w s).RegInv := by
  obtain ⟨hl, hcfg, herr, hx, hx0, hsclk⟩ := h
  cases c with
  | plain | rdata | rssiReceived | rssiOperand => exact ⟨hl, hcfg, herr, hx, hx0, hsclk⟩
  | configured => exact ⟨by simp [writeResult], by simp [writeResult], herr, hx, hx0, hsclk⟩
  | malformed => exact ⟨hl, hcfg, herr, by simp [writeResult], by simp [writeResult], hsclk⟩
  | packet =>
    unfold writeResult
    dsimp only
    split
    · refine ⟨hl, hcfg, herr, ?_, by simp, hsclk⟩
      exact (BitVec.toNat_ofNat _ _).trans_le ((Nat.mod_le _ _).trans hk)
    · exact ⟨hl, hcfg, herr, by simp, by simp, hsclk⟩

/-- `Complete()` leaves the sequencer Idle with chip-select high (R42, R98). -/
theorem RunInv.complete {s : State} {op : Operation} {c : Completion} {rest : List MicroOp} {w : Work} (h : RunInv s)
    (hs : s.seq = .run op (.complete c :: rest) w) : RunInv (complete c w s) := by
  obtain ⟨-, -, hfit, -, hk, -⟩ := (seqInv_run_iff hs).mp h.seq
  obtain ⟨hcs, -⟩ := (Bool.and_eq_true _ _).mp hfit
  exact ⟨by simpa using h.rstN, by simpa using h.mem, (seqInv_idle_iff rfl).mpr ⟨rfl, by simpa using hcs⟩,
    regInv_writeResult h.reg hk c⟩

theorem RunInv.microStep {s : State} {op : Operation} {m : MicroOp} {rest : List MicroOp} {w : Work} (h : RunInv s)
    (hs : s.seq = .run op (m :: rest) w) : RunInv (microStep op m rest w s) := by
  obtain ⟨-, -, hfit, -, hk, -⟩ := (seqInv_run_iff hs).mp h.seq
  cases m with
  | pktLength => exact h.decideLength hs
  | complete c => exact h.complete hs
  | waitSo =>
    have hrest := ((Bool.and_eq_true _ _).mp hfit).2
    unfold Sys2Proof.Machine.microStep
    dsimp only
    split
    · exact h.unseen ..
    · exact (h.advance hs hrest h.mem hk).unseen ..
  | rxStore =>
    have hrest := ((Bool.and_eq_true _ _).mp hfit).2
    refine h.advance hs hrest ?_ hk
    split
    · exact memSet_wf h.mem (by simp only [rxAddr]; omega)
    · exact h.mem
  | needTx _ | needTables | csLow | xfer _ | xferTx _ | csHigh | delayStart _ | delayEnd _ | latchLqi =>
    have hrest := ((Bool.and_eq_true _ _).mp hfit).2
    refine RunInv.unseen (h.advance hs hrest h.mem ?_) ..
    exact hk

theorem RunInv.seqAdvance {s : State} (h : RunInv s) : RunInv (seqAdvance s) := by
  unfold Sys2Proof.Machine.seqAdvance
  split
  · exact h.clockEdge
  · exact h.clockEdge
  · exact h.clockEdge.microStep ‹_›

theorem RunInv.runSeq {s : State} (h : RunInv s) (n : Nat) : RunInv (runSeq n s) :=
  runSeq_induct (fun _ hu => RunInv.seqAdvance hu) n h

/-! ## Reset (R300) -/

theorem reset_seqInv : State.reset.SeqInv := (seqInv_idle_iff rfl).mpr ⟨rfl, rfl⟩

theorem reset_regInv : State.reset.RegInv := by simp [State.RegInv, State.reset]

/-- Reset leaves every register at its reset value (R301). -/
theorem enterReset_inv (seen : Fin 24) (s : State) : (enterReset seen s).Inv :=
  ⟨reset_mem_wf, reset_seqInv, reset_regInv, fun _ => rfl⟩

/-- While RST_N = 0 only the agenda moves on. -/
theorem inv_setAgenda {s : State} (h : s.Inv) (rest : List Move) : ({ s with agenda := rest } : State).Inv := by
  obtain ⟨hmem, hseq, hreg, hres⟩ := h
  exact ⟨hmem, seqInv_congr hseq rfl rfl rfl rfl rfl rfl, hreg,
    fun hr => congrArg (fun u : State => { u with agenda := rest }) (hres hr)⟩

/-- The release of reset starts the machine from the reset values. -/
theorem inv_releaseReset {s : State} (h : s.Inv) (rest : List Move) :
    ({ s with agenda := rest, rstN := true } : State).Inv := by
  obtain ⟨hmem, hseq, hreg, -⟩ := h
  exact ⟨hmem, seqInv_congr hseq rfl rfl rfl rfl rfl rfl, hreg, fun hr => absurd hr (by simp)⟩

/-- Settles O53: after the release of reset the last part of the invariant asks nothing. -/
theorem invariantHoldsAtReset : Obligations.InvariantHoldsAtReset := by
  unfold Obligations.InvariantHoldsAtReset
  exact RunInv.inv ⟨rfl, reset_mem_wf, reset_seqInv, reset_regInv⟩

/-- Settles O54, by the cases of a step. -/
theorem everyStepKeepsTheInvariant : Obligations.EveryStepKeepsTheInvariant := by
  unfold Obligations.EveryStepKeepsTheInvariant
  intro s t hinv hstep
  obtain ⟨-, rest, rfl | rfl⟩ | ⟨hr, hmove⟩ := step_cases hstep
  · exact inv_setAgenda hinv rest
  · exact inv_releaseReset hinv rest
  have h := runInv_of_inv hinv hr
  obtain ⟨rest, rfl, -⟩ | ⟨-, rfl, -⟩ | ⟨rest, rfl⟩ | ⟨rest, rfl⟩ | ⟨rest, rfl⟩ | ⟨seen, rest, -, rfl⟩ |
    ⟨off, rest, u, -, hread, rfl⟩ | ⟨off, w, rest, -, -, rfl⟩ | ⟨w, rest, c, -, hc, rfl⟩ | ⟨w, rest, i, -, hd, hb, rfl⟩ :=
    hmove
  · exact (h.setAgenda rest).seqAdvance.inv
  · exact (h.answer _).seqAdvance.inv
  · exact ((h.answer _).setAgenda rest).clockEdge.inv
  · exact (h.setAgenda rest).clockEdge.inv
  · exact (h.setAgenda rest).inv
  · exact enterReset_inv seen _
  · obtain ⟨-, rfl⟩ := memRead_next hread
    split
    · exact ((h.setAgenda rest).drawBytes.answer _).clockEdge.inv
    · exact ((h.setAgenda rest).answer _).clockEdge.inv
  · exact (((h.setAgenda rest).writeEffect off.toNat w).setHErr false).clockEdge.inv
  · exact ((h.setAgenda _).reject hc).clockEdge.inv
  · exact (((h.setAgenda (.waitIdle :: rest)).accept hb (operandCheck_of_decode hd)).runSeq _).clockEdge.inv

end Sys2Proof.Machine
end

section
/-! PROOF. The state family: what only some steps change. ERR and BUSY are cleared by few steps (R35, R37, R42, R280), each
result register and buffer is changed by its own commands (R38, R39, R44 to R46, R48, R49), and LIFECYCLE steers no command (R38). -/

namespace Sys2Proof.Machine

/-! ## ERR and BUSY -/

theorem runSeq_err (n : Nat) (s : State) : (runSeq n s).err = s.err :=
  runSeq_induct (P := fun u => u.err = s.err) (fun u hu => by
    obtain ⟨-, -, -, -, herr, -⟩ := seqAdvance_keeps u
    exact herr.trans hu) n rfl

/-- A host write that clears ERR is one to STATUS with bit 2 set (R37). -/
theorem writeEffect_clears_err {off : Nat} {w : Word} {s : State} (hs : s.err = true)
    (ht : (writeEffect off w s).err = false) : off = 0x04 ∧ w.getLsbD 2 = true := by
  obtain ⟨c, -, e⟩ | ⟨-, -, i, -, e⟩ | ⟨ho, e⟩ | ⟨-, -, e⟩ | e := writeEffect_cases off w s <;> rw [e] at ht
  · simp at ht
  · simp [hs] at ht
  · exact ⟨ho, by simpa [hs] using ht⟩
  · simp [hs] at ht
  · simp [hs] at ht

/-- Settles O11: of all steps only a write to STATUS and reset clear ERR. -/
theorem errIsClearedOnlyByTheHostOrReset : Obligations.ErrIsClearedOnlyByTheHostOrReset := by
  unfold Obligations.ErrIsClearedOnlyByTheHostOrReset
  intro s t hs hstep ht
  have advance : ∀ u : State, u.err = true → (seqAdvance u).err ≠ false := fun u hu => by
    obtain ⟨-, -, -, -, herr, -⟩ := seqAdvance_keeps u
    simp [herr, hu]
  obtain ⟨-, rest, rfl | rfl⟩ | ⟨-, hmove⟩ := step_cases hstep
  · simp [hs] at ht
  · simp [hs] at ht
  obtain ⟨rest, rfl, -⟩ | ⟨-, rfl, -⟩ | ⟨rest, rfl⟩ | ⟨rest, rfl⟩ | ⟨rest, rfl⟩ | ⟨seen, rest, -, rfl⟩ |
    ⟨off, rest, u, -, hread, rfl⟩ | ⟨off, w, rest, ha, -, rfl⟩ | ⟨w, rest, c, -, -, rfl⟩ | ⟨w, rest, i, -, -, -, rfl⟩ :=
    hmove
  · exact absurd ht (advance _ hs)
  · exact absurd ht (advance _ hs)
  · simp [hs] at ht
  · simp [hs] at ht
  · simp [hs] at ht
  · exact .inr rfl
  · obtain ⟨-, rfl⟩ := memRead_next hread
    split at ht <;> simp [hs] at ht
  · obtain ⟨ho, hw⟩ := writeEffect_clears_err (s := { s with agenda := rest }) hs ht
    obtain rfl : off = 0x04 := BitVec.eq_of_toNat_eq ho
    exact .inl ⟨w, rest, ha, hw⟩
  · simp at ht
  · simp [runSeq_err, hs] at ht

/-- A sequencer step keeps BUSY = 1, or completes the command (R35, R42). -/
theorem seqAdvance_busy {s : State} (hb : s.busy = true) :
    (seqAdvance s).busy = true ∨ ((seqAdvance s).done = true ∧ (seqAdvance s).seq = .idle) := by
  unfold seqAdvance
  split
  · exact .inl hb
  · exact .inl hb
  · rename_i op m rest w _
    cases m with
    | complete c => exact .inr ⟨rfl, rfl⟩
    | waitSo => unfold microStep; dsimp only; split <;> exact .inl hb
    | pktLength => unfold microStep; dsimp only; rw [decideLength_eq]; exact .inl hb
    | needTx _ | needTables | csLow | xfer _ | xferTx _ | csHigh | delayStart _ | delayEnd _ | rxStore | latchLqi =>
      exact .inl hb

/-- No host write ends BUSY (R35). -/
theorem writeEffect_busy (off : Nat) (w : Word) {s : State} (hb : s.busy = true) : (writeEffect off w s).busy = true := by
  obtain ⟨c, -, e⟩ | ⟨-, hb', -⟩ | ⟨-, e⟩ | ⟨-, hb', -⟩ | e := writeEffect_cases off w s
  · rw [e]; exact hb
  · simp [hb] at hb'
  · rw [e, writeStatus_busy]; exact hb
  · simp [hb] at hb'
  · rw [e]; exact hb

/-- Settles O47: of all steps only `Complete()` and reset end BUSY. -/
theorem busyEndsOnlyByCompleteOrReset : Obligations.BusyEndsOnlyByCompleteOrReset := by
  unfold Obligations.BusyEndsOnlyByCompleteOrReset
  intro s t hs hstep ht
  have advance : ∀ u : State, u.busy = true → (seqAdvance u).busy = false →
      (seqAdvance u).done = true ∧ (seqAdvance u).seq = .idle := fun u hu hu' =>
    (seqAdvance_busy hu).resolve_left (by simp [hu'])
  obtain ⟨-, rest, rfl | rfl⟩ | ⟨-, hmove⟩ := step_cases hstep
  · simp [hs] at ht
  · simp [hs] at ht
  obtain ⟨rest, rfl, -⟩ | ⟨-, rfl, -⟩ | ⟨rest, rfl⟩ | ⟨rest, rfl⟩ | ⟨rest, rfl⟩ | ⟨seen, rest, -, rfl⟩ |
    ⟨off, rest, u, -, hread, rfl⟩ | ⟨off, w, rest, -, -, rfl⟩ | ⟨w, rest, c, -, -, rfl⟩ | ⟨w, rest, i, -, -, hb, -⟩ :=
    hmove
  · exact .inl (advance _ hs ht)
  · exact .inl (advance _ hs ht)
  · simp [hs] at ht
  · simp [hs] at ht
  · simp [hs] at ht
  · exact .inr rfl
  · obtain ⟨-, rfl⟩ := memRead_next hread
    split at ht <;> simp [hs] at ht
  · simp [writeEffect_busy off.toNat w (s := { s with agenda := rest }) hs] at ht
  · simp [hs] at ht
  · simp [hs] at hb

/-! ## Which operation changes which register -/

/-- From `s` to `t` a result register or a byte of RXBUF has changed only if an operation that may write it is in `A`. -/
structure ChangesBy (A : Operation → Prop) (s t : State) : Prop where
  rdata : KeptRdata s t ∨ A .readReg ∨ A .readStatus
  rxInfo : KeptRxInfo s t ∨ A .readPkt
  rxbuf : (∀ i < 64, memGet t.mem (rxAddr i) = memGet s.mem (rxAddr i)) ∨ A .readPkt
  rssi : KeptRssi s t ∨ A .readRssi ∨ A .decodeRssi
  lifecycle : KeptLifecycle s t ∨ A .configure

/-- Every byte of TXBUF is kept (R48). -/
def KeptTxbuf (s t : State) : Prop := ∀ i < 64, memGet t.mem (txAddr i) = memGet s.mem (txAddr i)

/-- The sequencer runs `op` (R51). -/
def State.Runs (s : State) (op : Operation) : Prop := ∃ pos w, s.seq = .run op pos w

/-- A step that keeps the registers and the buffers is no operation's. -/
theorem changesBy_of_kept {A : Operation → Prop} {s t : State} (hd : KeptRdata s t) (hx : KeptRxInfo s t)
    (hr : KeptRssi s t) (hl : KeptLifecycle s t) (hm : t.mem = s.mem) : ChangesBy A s t :=
  ⟨.inl hd, .inl hx, .inl fun _ _ => by rw [hm], .inl hr, .inl hl⟩

theorem ChangesBy.mono {A B : Operation → Prop} {s t : State} (h : ChangesBy A s t) (hAB : ∀ op, A op → B op) :
    ChangesBy B s t :=
  ⟨h.rdata.imp_right (Or.imp (hAB _) (hAB _)), h.rxInfo.imp_right (hAB _), h.rxbuf.imp_right (hAB _),
    h.rssi.imp_right (Or.imp (hAB _) (hAB _)), h.lifecycle.imp_right (hAB _)⟩

/-- Two changes in a row: what either operation may change. -/
theorem ChangesBy.trans {A : Operation → Prop} {s t u : State} (h₁ : ChangesBy A s t) (h₂ : ChangesBy A t u) :
    ChangesBy A s u where
  rdata := h₁.rdata.elim (fun e₁ => h₂.rdata.imp_left fun e₂ => e₂.trans e₁) .inr
  rxInfo := h₁.rxInfo.elim (fun e₁ => h₂.rxInfo.imp_left fun e₂ => ⟨e₂.1.trans e₁.1, e₂.2.trans e₁.2⟩) .inr
  rxbuf := h₁.rxbuf.elim (fun e₁ => h₂.rxbuf.imp_left fun e₂ i hi => (e₂ i hi).trans (e₁ i hi)) .inr
  rssi := h₁.rssi.elim (fun e₁ => h₂.rssi.imp_left fun e₂ => e₂.trans e₁) .inr
  lifecycle := h₁.lifecycle.elim (fun e₁ => h₂.lifecycle.imp_left fun e₂ => ⟨e₂.1.trans e₁.1, e₂.2.trans e₁.2⟩) .inr

/-- `Complete()` writes the result fields of its operation (R42). -/
theorem complete_changes {op : Operation} {c : Completion} (hc : completes op c = true) (w : Work) (s : State) :
    ChangesBy (· = op) s (complete c w s) := by
  cases c with
  | plain => exact changesBy_of_kept rfl ⟨rfl, rfl⟩ rfl ⟨rfl, rfl⟩ rfl
  | rdata =>
    have hop : .readReg = op ∨ .readStatus = op := by cases op <;> simp [completes] at hc <;> simp
    exact ⟨.inr hop, .inl ⟨rfl, rfl⟩, .inl fun _ _ => rfl, .inl rfl, .inl ⟨rfl, rfl⟩⟩
  | configured =>
    have hop : .configure = op := by cases op <;> simp [completes] at hc; rfl
    exact ⟨.inl rfl, .inl ⟨rfl, rfl⟩, .inl fun _ _ => rfl, .inl rfl, .inr hop⟩
  | malformed =>
    have hop : .readPkt = op := by cases op <;> simp [completes] at hc; rfl
    exact ⟨.inl rfl, .inr hop, .inl fun _ _ => rfl, .inl rfl, .inl ⟨rfl, rfl⟩⟩
  | packet =>
    have hop : .readPkt = op := by cases op <;> simp [completes] at hc; rfl
    simp only [complete, writeResult]
    split <;> exact ⟨.inl rfl, .inr hop, .inl fun _ _ => rfl, .inl rfl, .inl ⟨rfl, rfl⟩⟩
  | rssiReceived =>
    have hop : .readRssi = op := by cases op <;> simp [completes] at hc; rfl
    exact ⟨.inl rfl, .inl ⟨rfl, rfl⟩, .inl fun _ _ => rfl, .inr (.inl hop), .inl ⟨rfl, rfl⟩⟩
  | rssiOperand =>
    have hop : .decodeRssi = op := by cases op <;> simp [completes] at hc; rfl
    exact ⟨.inl rfl, .inl ⟨rfl, rfl⟩, .inl fun _ _ => rfl, .inr (.inr hop), .inl ⟨rfl, rfl⟩⟩

/-- A step of an operation's expansion changes what that operation may change (R51). -/
theorem microStep_changes {op : Operation} {m : MicroOp} (hm : stepFits op m = true) (rest : List MicroOp) (w : Work)
    (s : State) : ChangesBy (· = op) s (microStep op m rest w s) := by
  cases m with
  | complete c => exact complete_changes hm w s
  | waitSo => unfold microStep; dsimp only; split <;> exact changesBy_of_kept rfl ⟨rfl, rfl⟩ rfl ⟨rfl, rfl⟩ rfl
  | pktLength =>
    unfold microStep
    dsimp only
    rw [decideLength_eq]
    exact changesBy_of_kept rfl ⟨rfl, rfl⟩ rfl ⟨rfl, rfl⟩ rfl
  | rxStore =>
    have hop : .readPkt = op := (beq_iff_eq.mp hm).symm
    exact ⟨.inl rfl, .inl ⟨rfl, rfl⟩, .inr hop, .inl rfl, .inl ⟨rfl, rfl⟩⟩
  | needTx _ | needTables | csLow | xfer _ | xferTx _ | csHigh | delayStart _ | delayEnd _ | latchLqi =>
    exact changesBy_of_kept rfl ⟨rfl, rfl⟩ rfl ⟨rfl, rfl⟩ rfl

theorem clockEdge_changes {A : Operation → Prop} (s : State) : ChangesBy A s (clockEdge s) :=
  changesBy_of_kept rfl ⟨rfl, rfl⟩ rfl ⟨rfl, rfl⟩ rfl

theorem setAgenda_changes {A : Operation → Prop} (s : State) (rest : List Move) :
    ChangesBy A s { s with agenda := rest } :=
  changesBy_of_kept rfl ⟨rfl, rfl⟩ rfl ⟨rfl, rfl⟩ rfl

theorem answer_changes {A : Operation → Prop} (v : Word) (s : State) : ChangesBy A s (answer v s) :=
  changesBy_of_kept rfl ⟨rfl, rfl⟩ rfl ⟨rfl, rfl⟩ rfl

/-- A sequencer step changes what the operation that runs may change. -/
theorem seqAdvance_changes {s : State} (h : RunInv s) : ChangesBy s.Runs s (seqAdvance s) := by
  unfold seqAdvance
  split
  · exact clockEdge_changes s
  · exact clockEdge_changes s
  · rename_i op m rest w hs
    obtain ⟨-, -, -, hops, -⟩ := (seqInv_run_iff hs).mp h.seq
    have hm : stepFits op m = true := ((Bool.and_eq_true _ _).mp hops).1
    refine (clockEdge_changes s).trans ((microStep_changes hm rest w (clockEdge s)).mono ?_)
    rintro _ rfl
    exact ⟨_, _, hs⟩

/-- A sequencer step starts no operation. -/
theorem runs_of_runs_seqAdvance {s : State} {op : Operation} (h : (seqAdvance s).Runs op) : s.Runs op := by
  obtain ⟨pos, w, h⟩ := h
  unfold seqAdvance at h
  split at h
  · exact ⟨pos, w, h⟩
  · exact ⟨pos, w, h⟩
  · rename_i op' m rest w' hs
    have of_eq : ∀ {p v}, Seq.run op' p v = .run op pos w → s.Runs op := by
      rintro p v ⟨⟩
      exact ⟨_, _, hs⟩
    cases m with
    | complete c => exact absurd h (by simp [microStep])
    | waitSo =>
      unfold microStep at h
      dsimp only at h
      split at h
      · exact ⟨pos, w, h⟩
      · exact of_eq h
    | pktLength =>
      unfold microStep decideLength at h
      dsimp only at h
      split at h <;> exact of_eq h
    | needTx _ | needTables | csLow | xfer _ | xferTx _ | csHigh | delayStart _ | delayEnd _ | rxStore | latchLqi =>
      exact of_eq h

/-- A run changes what the operation it starts with may change. -/
theorem runSeq_changes (n : Nat) {s : State} (h : RunInv s) : ChangesBy s.Runs s (runSeq n s) := by
  suffices all : RunInv (runSeq n s) ∧ (∀ op, (runSeq n s).Runs op → s.Runs op) ∧ ChangesBy s.Runs s (runSeq n s) by
    obtain ⟨-, -, hc⟩ := all
    exact hc
  refine runSeq_induct (P := fun u => RunInv u ∧ (∀ op, u.Runs op → s.Runs op) ∧ ChangesBy s.Runs s u) ?_ n
    ⟨h, fun _ => id, changesBy_of_kept rfl ⟨rfl, rfl⟩ rfl ⟨rfl, rfl⟩ rfl⟩
  rintro u ⟨hu, hruns, hc⟩
  exact ⟨hu.seqAdvance, fun op hop => hruns op (runs_of_runs_seqAdvance hop),
    hc.trans ((seqAdvance_changes hu).mono hruns)⟩

theorem runSeq_keeps_txbuf (n : Nat) (s : State) : KeptTxbuf s (runSeq n s) :=
  runSeq_induct (P := KeptTxbuf s) (fun u hu i hi => (seqAdvance_txbuf u i hi).trans (hu i hi)) n fun _ _ => rfl

/-- Acceptance changes LIFECYCLE and CONFIG_OK for CONFIGURE, and no result register (R190, R270). -/
theorem accept_changes (i : Instr) (body : State → List MicroOp) (s : State) :
    ChangesBy (· = i.operation) s (accept i body s) := by
  refine ⟨.inl rfl, .inl ⟨rfl, rfl⟩, .inl fun _ _ => rfl, .inl rfl, ?_⟩
  by_cases hop : i.operation = .configure
  · exact .inr hop.symm
  · exact .inl ⟨by simp [hop], by simp [hop]⟩

/-- A write of a TXBUF word leaves RXBUF alone (R48, R49). -/
theorem storeWord_keeps_rxbuf (m : Memory) (w : Word) {off : Nat} (ho : off ≤ 0x7C) (i : Nat) :
    memGet (storeWord m off w) (rxAddr i) = memGet m (rxAddr i) := by
  rw [memGet_storeWord, if_neg, if_neg, if_neg, if_neg] <;> (simp only [rxAddr]; omega)

/-- The last word-aligned offset below 0x80 is 0x7C (R32). -/
theorem aligned_le {off : BitVec 8} (ha : off.extractLsb' 0 2 = 0) (ho : off.toNat < 0x80) : off.toNat ≤ 0x7C := by
  have h4 : off.toNat % 4 = 0 := by simpa [BitVec.extractLsb'_toNat] using congrArg BitVec.toNat ha
  omega

/-- A host write changes what the command it issues may change, and TXBUF at a TXBUF word only. -/
theorem writeEffect_changes {off : BitVec 8} (ha : off.extractLsb' 0 2 = 0) (w : Word) (s : State) :
    ChangesBy (fun op => off = 0x00 ∧ ∃ i, decode w = .cmd i ∧ i.operation = op) s (writeEffect off.toNat w s) ∧
      (KeptTxbuf s (writeEffect off.toNat w s) ∨ (s.busy = false ∧ 0x40 ≤ off.toNat ∧ off.toNat ≤ 0x7C)) := by
  obtain ⟨c, -, e⟩ | ⟨ho, -, i, hd, e⟩ | ⟨-, e⟩ | ⟨⟨hlo, hhi⟩, hb, e⟩ | e := writeEffect_cases off.toNat w s <;> rw [e]
  · exact ⟨changesBy_of_kept rfl ⟨rfl, rfl⟩ rfl ⟨rfl, rfl⟩ rfl, .inl fun _ _ => rfl⟩
  · refine ⟨(accept_changes i (bodyOf i) s).mono ?_, .inl fun _ _ => rfl⟩
    rintro op rfl
    exact ⟨BitVec.eq_of_toNat_eq ho, i, hd, rfl⟩
  · exact ⟨changesBy_of_kept (writeStatus_rdata s w) ⟨writeStatus_rxCount s w, writeStatus_rxOutcome s w⟩
      (writeStatus_rssiRaw s w) ⟨writeStatus_lifecycle s w, writeStatus_configOk s w⟩ (writeStatus_mem s w),
      .inl fun _ _ => by rw [writeStatus_mem]⟩
  · have hle := aligned_le ha hhi
    exact ⟨⟨.inl rfl, .inl ⟨rfl, rfl⟩, .inl fun j _ => storeWord_keeps_rxbuf s.mem w hle j, .inl rfl, .inl ⟨rfl, rfl⟩⟩,
      .inr ⟨hb, hlo, hle⟩⟩
  · exact ⟨changesBy_of_kept rfl ⟨rfl, rfl⟩ rfl ⟨rfl, rfl⟩ rfl, .inl fun _ _ => rfl⟩

/-- A command line changes what its command may change (R135). -/
theorem commandLine_changes {s : State} (h : RunInv s) (hb : s.busy = false) {i : Instr}
    (hi : operandCheck i = none) (n : Nat) : ChangesBy (· = i.operation) s (runSeq n (accept i (bodyOf i) s)) := by
  refine (accept_changes i (bodyOf i) s).trans ((runSeq_changes n (h.accept hb hi)).mono ?_)
  rintro op ⟨pos, w, hs⟩
  rw [accept_seq] at hs
  cases hs
  rfl

/-- What a step outside reset may change: the registers by the operation at work, TXBUF by a host write of one of its words. -/
theorem step_changes {s t : State} (hinv : s.Inv) (hstep : step s = .next t) (hrst : t.rstN = true) :
    ChangesBy s.ActsBy s t ∧
      (KeptTxbuf s t ∨ (s.busy = false ∧
        ∃ off w rest, s.agenda = .write off w 0xF :: rest ∧ 0x40 ≤ off.toNat ∧ off.toNat ≤ 0x7C)) := by
  obtain ⟨-, rest, rfl | rfl⟩ | ⟨hr, hmove⟩ := step_cases hstep
  · exact ⟨setAgenda_changes s rest, .inl fun _ _ => rfl⟩
  · exact ⟨changesBy_of_kept rfl ⟨rfl, rfl⟩ rfl ⟨rfl, rfl⟩ rfl, .inl fun _ _ => rfl⟩
  have h := runInv_of_inv hinv hr
  have runs : ∀ op, s.Runs op → s.ActsBy op := fun _ => .inl
  obtain ⟨rest, rfl, -⟩ | ⟨-, rfl, -⟩ | ⟨rest, rfl⟩ | ⟨rest, rfl⟩ | ⟨rest, rfl⟩ | ⟨seen, rest, -, rfl⟩ |
    ⟨off, rest, u, -, hread, rfl⟩ | ⟨off, w, rest, ha, hal, rfl⟩ | ⟨w, rest, c, -, -, rfl⟩ | ⟨w, rest, i, ha, hd, hb, rfl⟩ :=
    hmove
  · have hadv := (seqAdvance_changes (h.setAgenda rest)).mono runs
    exact ⟨(setAgenda_changes s rest).trans hadv, .inl (seqAdvance_txbuf _)⟩
  · have hadv := (seqAdvance_changes (h.answer (statusWord s))).mono runs
    exact ⟨(answer_changes _ s).trans hadv, .inl (seqAdvance_txbuf _)⟩
  · exact ⟨((answer_changes _ s).trans (setAgenda_changes _ rest)).trans (clockEdge_changes _), .inl fun _ _ => rfl⟩
  · exact ⟨(setAgenda_changes s rest).trans (clockEdge_changes _), .inl fun _ _ => rfl⟩
  · exact ⟨setAgenda_changes s rest, .inl fun _ _ => rfl⟩
  · simp at hrst
  · obtain ⟨-, rfl⟩ := memRead_next hread
    split <;> exact ⟨changesBy_of_kept rfl ⟨rfl, rfl⟩ rfl ⟨rfl, rfl⟩ rfl, .inl fun _ _ => rfl⟩
  · obtain ⟨hc, htx⟩ := writeEffect_changes hal w { s with agenda := rest }
    have acts : ∀ op, (off = 0x00 ∧ ∃ i, decode w = .cmd i ∧ i.operation = op) → s.ActsBy op := by
      rintro op ⟨rfl, i, hd, hop⟩
      exact .inr ⟨w, rest, i, .inl ha, hd, hop⟩
    have hend : ChangesBy s.ActsBy (writeEffect off.toNat w { s with agenda := rest })
        (clockEdge { writeEffect off.toNat w { s with agenda := rest } with hErr := false }) :=
      changesBy_of_kept rfl ⟨rfl, rfl⟩ rfl ⟨rfl, rfl⟩ rfl
    exact ⟨((setAgenda_changes s rest).trans (hc.mono acts)).trans hend,
      htx.imp id fun ⟨hb, hlo, hhi⟩ => ⟨hb, off, w, rest, ha, hlo, hhi⟩⟩
  · exact ⟨changesBy_of_kept rfl ⟨rfl, rfl⟩ rfl ⟨rfl, rfl⟩ rfl, .inl fun _ _ => rfl⟩
  · have acts : ∀ op, op = i.operation → s.ActsBy op := by
      rintro op rfl
      exact .inr ⟨w, rest, i, .inr ha, hd, rfl⟩
    have hrun :=
      (commandLine_changes (h.setAgenda (.waitIdle :: rest)) hb (operandCheck_of_decode hd) (runFuel + 1)).mono acts
    have htx := runSeq_keeps_txbuf (runFuel + 1) (accept i (bodyOf i) { s with agenda := .waitIdle :: rest })
    exact ⟨((setAgenda_changes s _).trans hrun).trans (clockEdge_changes _), .inl htx⟩

/-- Settles O48, by what each step may change. -/
theorem stateChangesOnlyByItsOwnCommands : Obligations.StateChangesOnlyByItsOwnCommands := by
  unfold Obligations.StateChangesOnlyByItsOwnCommands
  intro s t hinv hstep hrst
  obtain ⟨h, htx⟩ := step_changes hinv hstep hrst
  refine ⟨h.rdata.resolve_left, fun hne => h.rxInfo.resolve_left fun ⟨hc, ho⟩ => ?_,
    fun i hi hne => h.rxbuf.resolve_left fun hk => hne (hk i hi), h.rssi.resolve_left,
    fun hne => h.lifecycle.resolve_left fun ⟨hl, hc⟩ => ?_, fun i hi hne => htx.resolve_left fun hk => hne (hk i hi)⟩
  · exact hne.elim (· hc) (· ho)
  · exact hne.elim (· hl) (· hc)

/-! ## LIFECYCLE steers no command (R38) -/

/-- The same stop, or next states that differ at most in LIFECYCLE. -/
inductive AgreeUpToLifecycle : Host.Outcome State Fault Refusal → Host.Outcome State Fault Refusal → Prop where
  | next (t : State) (l : Lifecycle) : AgreeUpToLifecycle (.next t) (.next { t with lifecycle := l })
  | fault (f : Fault) : AgreeUpToLifecycle (.fault f) (.fault f)
  | refused (r : Refusal) : AgreeUpToLifecycle (.refused r) (.refused r)

theorem complete_setLifecycle (c : Completion) (w : Work) (s : State) (l : Lifecycle) :
    ∃ l', complete c w { s with lifecycle := l } = { complete c w s with lifecycle := l' } := by
  cases c with
  | plain | rdata | malformed | rssiReceived | rssiOperand => exact ⟨l, rfl⟩
  | configured => exact ⟨.ready, rfl⟩
  | packet =>
    simp only [complete, writeResult]
    split <;> exact ⟨l, rfl⟩

/-- The effect of a step does not depend on LIFECYCLE. -/
theorem microStep_setLifecycle (op : Operation) (m : MicroOp) (rest : List MicroOp) (w : Work) (s : State) (l : Lifecycle) :
    ∃ l', microStep op m rest w { s with lifecycle := l } = { microStep op m rest w s with lifecycle := l' } := by
  cases m with
  | complete c => exact complete_setLifecycle c w s l
  | waitSo =>
    refine ⟨l, ?_⟩
    cases hso : s.soAt 0
    · rw [microStep_waitSo_low _ _ _ hso, microStep_waitSo_low _ _ _ (s := { s with lifecycle := l }) hso]
    · rw [microStep_waitSo_high _ _ _ hso, microStep_waitSo_high _ _ _ (s := { s with lifecycle := l }) hso]
  | pktLength =>
    refine ⟨l, ?_⟩
    simp only [microStep, decideLength]
    split <;> rfl
  | needTx _ | needTables | csLow | xfer _ | xferTx _ | csHigh | delayStart _ | delayEnd _ | rxStore | latchLqi =>
    exact ⟨l, rfl⟩

theorem seqAdvance_setLifecycle (s : State) (l : Lifecycle) :
    ∃ l', seqAdvance { s with lifecycle := l } = { seqAdvance s with lifecycle := l' } := by
  simp only [seqAdvance]
  split
  · exact ⟨l, rfl⟩
  · exact ⟨l, rfl⟩
  · exact microStep_setLifecycle _ _ _ _ (clockEdge s) l

theorem runSeq_setLifecycle (n : Nat) (s : State) (l : Lifecycle) :
    ∃ l', runSeq n { s with lifecycle := l } = { runSeq n s with lifecycle := l' } := by
  induction n generalizing s l with
  | zero => exact ⟨l, rfl⟩
  | succ n ih =>
    simp only [runSeq]
    split
    · exact ⟨l, rfl⟩
    · obtain ⟨l', e⟩ := seqAdvance_setLifecycle s l
      rw [e]
      exact ih (seqAdvance s) l'

/-- No check before a first transaction looks at LIFECYCLE. -/
theorem seqStep_setLifecycle (s : State) (l : Lifecycle) :
    AgreeUpToLifecycle (seqStep s) (seqStep { s with lifecycle := l }) := by
  have htx : ∀ n, txWritten { s with lifecycle := l } n = txWritten s n := fun _ => rfl
  obtain ⟨l', e⟩ := seqAdvance_setLifecycle s l
  simp only [seqStep, htx, e]
  split
  · split
    · exact .next _ _
    · exact .fault _
  · split_ifs
    · exact .next _ _
    · exact .refused _
    · exact .refused _
  · exact .next _ _

theorem accept_setLifecycle (i : Instr) (s : State) (l : Lifecycle) :
    ∃ l', accept i (bodyOf i) { s with lifecycle := l } = { accept i (bodyOf i) s with lifecycle := l' } := by
  refine ⟨if i.operation = .configure then .configuring else l, ?_⟩
  have hbody : bodyOf i (capture i { s with lifecycle := l }) = bodyOf i (capture i s) := bodyOf_congr i rfl rfl
  simp only [accept, hbody]
  rfl

/-- Settles O40: acceptance, the checks and the run do not look at LIFECYCLE. -/
theorem commandsDoNotDependOnLifecycle : Obligations.CommandsDoNotDependOnLifecycle := by
  unfold Obligations.CommandsDoNotDependOnLifecycle
  intro i s l
  have h : AgreeUpToLifecycle (exec i s) (exec i { s with lifecycle := l }) := by
    rw [exec_eq_runCommand, exec_eq_runCommand]
    unfold runCommand
    dsimp only
    split_ifs
    · exact .refused _
    · exact .next _ l
    · split
      · exact .next _ l
      · obtain ⟨l', e⟩ := accept_setLifecycle i s l
        have hstep := seqStep_setLifecycle (accept i (bodyOf i) s) l'
        rw [e]
        generalize seqStep (accept i (bodyOf i) s) = o, seqStep { accept i (bodyOf i) s with lifecycle := l' } = o' at hstep
        cases hstep with
        | next t l'' =>
          obtain ⟨l₃, e₃⟩ := runSeq_setLifecycle runFuel t l''
          dsimp only
          rw [e₃]
          exact .next _ l₃
        | fault f => exact .fault f
        | refused r => exact .refused r
  generalize exec i s = o, exec i { s with lifecycle := l } = o' at h
  cases h <;> rfl

end Sys2Proof.Machine
end

section
/-! PROOF. The state family: STATUS and its synchronised lines (R34, R36, R37, R40, R41, R54), TXBUF as the host writes and
reads it (R48, R90), the command a step runs (R135, R270), and the reset table (R59). -/

namespace Sys2Proof.Machine

/-! ## STATUS -/

/-- ERRCODE stands in bits 6:4 of STATUS (R34). -/
theorem extract_statusWord_errCode (s : State) : (statusWord s).extractLsb' 4 3 = codeBits s.errCode := by
  apply BitVec.eq_of_getLsbD_eq
  intro k hk
  rw [BitVec.getLsbD_extractLsb', getLsbD_statusWord]
  interval_cases k <;> simp

/-- LIFECYCLE stands in bits 9:8 of STATUS (R34). -/
theorem extract_statusWord_lifecycle (s : State) : (statusWord s).extractLsb' 8 2 = lifecycleBits s.lifecycle := by
  apply BitVec.eq_of_getLsbD_eq
  intro k hk
  rw [BitVec.getLsbD_extractLsb', getLsbD_statusWord]
  interval_cases k <;> simp

/-- Bits 31:15 of STATUS are reserved (R34, R50). -/
theorem extract_statusWord_reserved (s : State) : (statusWord s).extractLsb' 15 17 = 0 := by
  apply BitVec.eq_of_getLsbD_eq
  intro k hk
  rw [BitVec.getLsbD_extractLsb', getLsbD_statusWord]
  interval_cases k <;> simp

/-- Settles O17, from the bits of STATUS. -/
theorem statusWordLayout : Obligations.StatusWordLayout := by
  unfold Obligations.StatusWordLayout
  intro s
  simp only [getLsbD_statusWord, extract_statusWord_errCode, extract_statusWord_lifecycle, extract_statusWord_reserved]
  refine ⟨rfl, rfl, rfl, rfl, ?_, rfl, ?_, rfl, rfl, rfl, rfl, rfl, trivial⟩
  · cases s.errCode <;> rfl
  · cases s.lifecycle <;> rfl

/-- A full-word write at an aligned offset is legal (R81, R82). -/
theorem memWrite_of_aligned {off : BitVec 8} (ha : off.extractLsb' 0 2 = 0) (w : Word) (s : State) :
    memWrite off w 0xF s = .next { writeEffect off.toNat w s with hErr := false } := by
  simp [memWrite, ha]

/-- A read at an aligned offset is legal (R81, R82). -/
theorem memRead_of_aligned {off : BitVec 8} (ha : off.extractLsb' 0 2 = 0) (s : State) :
    memRead off s = .next (answer (readValue off.toNat s) (if inBuffers off.toNat then drawBytes s else s)) := by
  simp [memRead, ha]

/-- Settles O18, by the two bits of the word that have an effect. -/
theorem statusWriteClearsDoneAndErr : Obligations.StatusWriteClearsDoneAndErr := by
  unfold Obligations.StatusWriteClearsDoneAndErr
  intro s w
  have heff : writeEffect (0x04 : BitVec 8).toNat w s = writeStatus w s := rfl
  rw [memWrite_of_aligned (by decide), heff]
  unfold writeStatus
  cases w.getLsbD 1 <;> cases w.getLsbD 2 <;> rfl

/-- Settles O45: a clock edge moves each synchroniser on by one stage, and reset empties both. -/
theorem linesShowTheLevelTwoEdgesBefore : Obligations.LinesShowTheLevelTwoEdgesBefore := by
  unfold Obligations.LinesShowTheLevelTwoEdgesBefore
  intro s
  simp only [getLsbD_statusWord]
  exact ⟨rfl, rfl, fun seen => ⟨rfl, Bool.and_false _⟩⟩

/-! ## TXBUF words -/

/-- Two words with the same four bytes are the same. -/
theorem word_eq_of_bytes {v w : Word} (h : ∀ j < 4, v.extractLsb' (8 * j) 8 = w.extractLsb' (8 * j) 8) : v = w := by
  apply BitVec.eq_of_getLsbD_eq
  intro k hk
  have hbit := congrArg (fun b : Byte => b.getLsbD (k % 8)) (h (k / 8) (by omega))
  simpa only [BitVec.getLsbD_extractLsb', Nat.mod_lt k (show 0 < 8 by decide), decide_true, Bool.true_and, Nat.div_add_mod]
    using hbit

/-- The offset of TXBUF word `k` (R32). -/
theorem txWord_offset {k : Nat} (hk : k < 16) :
    (BitVec.ofNat 8 (0x40 + 4 * k)).toNat = txAddr (4 * k) ∧ (BitVec.ofNat 8 (0x40 + 4 * k)).extractLsb' 0 2 = 0 := by
  have ht : (BitVec.ofNat 8 (0x40 + 4 * k)).toNat = 0x40 + 4 * k := by
    rw [BitVec.toNat_ofNat]
    omega
  refine ⟨ht, BitVec.eq_of_toNat_eq ?_⟩
  rw [BitVec.extractLsb'_toNat, ht]
  change (0x40 + 4 * k) % 4 = 0
  omega

/-- The bytes of a stored word, by their index (R90). -/
theorem memGet_storeWord_byte (m : Memory) (a : Nat) (w : Word) {j : Nat} (hj : j < 4) :
    memGet (storeWord m a w) (a + j) = some (w.extractLsb' (8 * j) 8) := by
  rw [memGet_storeWord]
  interval_cases j <;> simp

/-- A stored word leaves the other bytes alone. -/
theorem memGet_storeWord_other (m : Memory) (a : Nat) (w : Word) {a' : Nat} (h : ∀ j < 4, a' ≠ a + j) :
    memGet (storeWord m a w) a' = memGet m a' := by
  have h0 : a' ≠ a := h 0 (by decide)
  rw [memGet_storeWord, if_neg h0, if_neg (h 1 (by decide)), if_neg (h 2 (by decide)),
    if_neg (h 3 (by decide))]

/-- A host read of a TXBUF word whose bytes are those of `w` sees `w`, whatever runs (R85, R90, R108). -/
theorem bufferWord_of_bytes {s : State} {a : Nat} {w : Word} (ha : a + 3 < 0x80)
    (h : ∀ j < 4, memGet s.mem (a + j) = some (w.extractLsb' (8 * j) 8)) : bufferWord s a = w := by
  refine word_eq_of_bytes fun j hj => ?_
  rw [extract_bufferWord s a j hj, hostByte_of_no_race j (.inl (by omega)), h j hj]
  rfl

/-- A write of a TXBUF word stores it while BUSY = 0 (R48, R86). -/
theorem writeEffect_txWord {off : Nat} (ho : 0x40 ≤ off ∧ off < 0x80) (w : Word) {s : State} (hb : s.busy = false) :
    writeEffect off w s = { s with mem := storeWord s.mem off w } := by
  unfold writeEffect writeTxbuf
  rw [if_neg (by omega), if_neg (by omega), if_pos ho, hb]
  rfl

theorem readValue_of_inBuffers {off : Nat} (h : inBuffers off = true) (s : State) : readValue off s = bufferWord s off :=
  if_pos h

/-- Settles O19, by the bytes of a stored word. -/
theorem txbufWriteStoresTheWord : Obligations.TxbufWriteStoresTheWord := by
  unfold Obligations.TxbufWriteStoresTheWord
  intro s k w hk hb
  obtain ⟨hoff, ha⟩ := txWord_offset hk
  have hrange : 0x40 ≤ txAddr (4 * k) ∧ txAddr (4 * k) + 3 < 0x80 := by simp only [txAddr]; omega
  have haddr : ∀ j, txAddr (4 * k + j) = txAddr (4 * k) + j := fun j => (Nat.add_assoc 0x40 (4 * k) j).symm
  have hbytes : ∀ j < 4, memGet (storeWord s.mem (txAddr (4 * k)) w) (txAddr (4 * k) + j) = some (w.extractLsb' (8 * j) 8) :=
    fun j hj => memGet_storeWord_byte _ _ w hj
  refine ⟨storeWord s.mem (txAddr (4 * k)) w, ?_, fun j hj => ?_, fun a h => ?_, _, memRead_of_aligned ha _, ?_⟩
  · rw [memWrite_of_aligned ha, hoff, writeEffect_txWord (by omega) w hb]
  · rw [haddr, hbytes j hj]
  · exact memGet_storeWord_other _ _ w fun j hj => haddr j ▸ h j hj
  · have hin : inBuffers (txAddr (4 * k)) = true := by simp only [inBuffers, decide_eq_true_eq]; omega
    rw [answer_hRdata, hoff, readValue_of_inBuffers hin]
    exact bufferWord_of_bytes hrange.2 hbytes

/-! ## The command a step runs -/

/-- A command line whose word decodes to a command is `exec` of it (R135, R270). -/
theorem step_command {s : State} {w : Word} {i : Instr} {rest : List Move} (h : s.Ready)
    (ha : s.agenda = .command w :: rest) (hd : decode w = .cmd i) :
    step s = clocked (exec i { s with agenda := .waitIdle :: rest }) := by
  obtain ⟨hr, hb⟩ := h
  simp [step, machineMove, ha, hr, moveRunning, issueCommand, hb, hd]

/-- The instruction word of the opcode table decodes as its low bits do. -/
theorem decode_of_decodeTableWord {nbits w : Nat} {i : Instr} (h : decodeTableWord nbits w = some i) :
    decode (BitVec.ofNat 32 (w % 2 ^ nbits)) = .cmd i := by
  unfold decodeTableWord at h
  split at h
  · obtain rfl := Option.some.inj h
    assumption
  · simp at h

/-- Settles O41, for a command line in the agenda and for one placed there. -/
theorem stepRunsTheDecodedCommand : Obligations.StepRunsTheDecodedCommand := by
  unfold Obligations.StepRunsTheDecodedCommand
  exact ⟨fun s w i rest h ha hd => step_command h ha hd,
    fun s nbits w i h hd => step_command (s := s.withFetchWord nbits w) h rfl (decode_of_decodeTableWord hd)⟩

/-! ## The reset table (R59) -/

/-- Settles O52: the three words evaluate, and no buffer byte is listed. -/
theorem resetStateValues : Obligations.ResetStateValues := by
  unfold Obligations.ResetStateValues
  refine ⟨?_, rfl, rfl, rfl, by decide, rfl, rfl, rfl, rfl, rfl, rfl, rfl, rfl, fun i _ => ⟨rfl, rfl⟩⟩
  simp [statusWord, auxLine, readyLine, csActive, State.reset, codeBits, lifecycleBits]

end Sys2Proof.Machine
end

section
/-! PROOF. The memory family: the host port's accesses, legal and illegal (R50, R81 to R85, R90, R108, R312), TXBUF while a
command runs (R107, R274), and the wave of a byte exchange (R91, R93). -/

namespace Sys2Proof.Machine

/-! ## Legal and illegal accesses (R81, R82) -/

/-- An offset's two low bits are 0 exactly at the multiples of 4. -/
theorem extract_low_eq_zero_iff (off : BitVec 8) : off.extractLsb' 0 2 = 0 ↔ off.toNat % 4 = 0 := by
  rw [← BitVec.toNat_inj, BitVec.extractLsb'_toNat]
  simp

/-- Settles O12: both accesses test the low bits of the offset, a write its strobes too. -/
theorem illegalHostAccessFaults : Obligations.IllegalHostAccessFaults := by
  unfold Obligations.IllegalHostAccessFaults
  intro s off w strb
  have hlow := not_congr (extract_low_eq_zero_iff off)
  exact ⟨fun ha => if_pos (hlow.mpr ha), fun hbad => if_pos (hbad.imp_left hlow.mpr)⟩

theorem writeEffect_agenda (off : Nat) (w : Word) (s : State) : (writeEffect off w s).agenda = s.agenda := by
  obtain ⟨c, -, e⟩ | ⟨-, -, i, -, e⟩ | ⟨-, e⟩ | ⟨-, -, e⟩ | e := writeEffect_cases off w s <;> rw [e]
  · exact reject_agenda s c
  · exact accept_agenda s i (bodyOf i)
  · exact writeStatus_agenda s w

/-- Settles O13: a legal access answers with `h_err = 0`, and no effect of a write touches the agenda. -/
theorem legalHostAccessAnswersNoError : Obligations.LegalHostAccessAnswersNoError := by
  unfold Obligations.LegalHostAccessAnswersNoError
  intro s off w hoff
  have ha := (extract_low_eq_zero_iff off).mpr hoff
  refine ⟨⟨_, memRead_of_aligned ha s, rfl, ?_⟩, _, memWrite_of_aligned ha w s, rfl, writeEffect_agenda off.toNat w s⟩
  split <;> rfl

/-- Settles O14: a read sets the port's outputs, and in the buffers it draws. -/
theorem hostReadHasNoSideEffect : Obligations.HostReadHasNoSideEffect := by
  unfold Obligations.HostReadHasNoSideEffect
  intro s t off hread
  obtain ⟨-, rfl⟩ := memRead_next hread
  split <;> rfl

/-- A host write outside CMD, STATUS and TXBUF has no effect (R84). -/
theorem writeEffect_other {off : Nat} (w : Word) (s : State) (hcmd : off ≠ 0x00) (hstatus : off ≠ 0x04)
    (htx : ¬(0x40 ≤ off ∧ off < 0x80)) : writeEffect off w s = s := by
  unfold writeEffect
  rw [if_neg hcmd, if_neg hstatus, if_neg htx]

/-- Settles O20: a word-aligned offset outside CMD, STATUS and TXBUF's words has no effect. -/
theorem otherHostWritesAreIgnored : Obligations.OtherHostWritesAreIgnored := by
  unfold Obligations.OtherHostWritesAreIgnored
  intro s off w hoff hcmd hstatus htx
  rw [memWrite_of_aligned ((extract_low_eq_zero_iff off).mpr hoff), writeEffect_other w s]
  · exact fun e => hcmd (BitVec.eq_of_toNat_eq e)
  · exact fun e => hstatus (BitVec.eq_of_toNat_eq e)
  · omega

/-! ## What a read returns (R85) -/

/-- The fields of the RXINFO word, by shifts (R45). -/
theorem rxInfoWord_eq (s : State) :
    rxInfoWord s = (outcomeBits s.rxOutcome).setWidth 32 <<< 8 ||| s.rxCount.setWidth 32 := by
  have hbits : ∀ k, (rxInfoWord s).getLsbD k =
      BitVec.getLsbD (w := 22 + 2 + 1 + 7) (0#22 ++ outcomeBits s.rxOutcome ++ 0#1 ++ s.rxCount) k := fun _ => rfl
  apply BitVec.eq_of_getLsbD_eq
  intro k hk
  rw [hbits]
  simp only [BitVec.getLsbD_append, BitVec.getLsbD_or, BitVec.getLsbD_shiftLeft, BitVec.getLsbD_setWidth]
  interval_cases k <;> simp

/-- CMD and the reserved offsets read 0 (R33, R50). -/
theorem readValue_eq_zero {off : Nat} (s : State) (h : off < 0x04 ∨ (0x18 ≤ off ∧ off < 0x40) ∨ 0xC0 ≤ off) :
    readValue off s = 0 := by
  unfold readValue
  rw [if_neg (by simp only [inBuffers, decide_eq_true_eq]; omega)]
  split
  · omega
  · omega
  · omega
  · omega
  · omega
  · rfl

theorem inBuffers_of_mem {off : Nat} (h : 0x40 ≤ off ∧ off < 0xC0) : inBuffers off = true := decide_eq_true h

/-- Settles O15: each offset's register, and in the buffers each byte of the word, no RXBUF byte of it racing. -/
theorem hostReadReturnsTheRegister : Obligations.HostReadReturnsTheRegister := by
  unfold Obligations.HostReadReturnsTheRegister
  intro s off hoff
  refine ⟨_, memRead_of_aligned ((extract_low_eq_zero_iff off).mpr hoff) s, ?_⟩
  rw [answer_hRdata]
  refine ⟨?_, ?_, ?_, ?_, ?_, ?_, fun h => readValue_eq_zero s (by omega), fun h j hj => ?_⟩
  · rintro rfl
    exact readValue_eq_zero s (.inl (by decide))
  · rintro rfl
    rfl
  · rintro rfl
    rfl
  · rintro rfl
    exact rxInfoWord_eq s
  · rintro rfl
    rfl
  · rintro rfl
    rfl
  · rw [readValue_of_inBuffers (inBuffers_of_mem (by omega)), extract_bufferWord s _ j hj]
    refine hostByte_of_no_race j ?_
    obtain ⟨-, hhi⟩ | ⟨-, -, hseq⟩ := h
    · exact .inl (by omega)
    · exact .inr hseq

/-- A buffer byte read while READ_PKT runs, written before the command and now, is the one or the other (R108). -/
theorem hostByte_of_race {s : State} {pos : List MicroOp} {w : Work} (hs : s.seq = .run .readPkt pos w) (a j : Nat)
    {old new : Byte} (hold : memGet w.old a = some old) (hnew : memGet s.mem a = some new) :
    hostByte s a j = old ∨ hostByte s a j = new := by
  unfold hostByte
  rw [hs]
  dsimp only
  split
  · exact .inl (by rw [hold]; rfl)
  · exact .inr (by rw [hnew]; rfl)

/-- Settles O16: each byte of the word races by itself. -/
theorem rxbufReadDuringReadPktRaces : Obligations.RxbufReadDuringReadPktRaces := by
  unfold Obligations.RxbufReadDuringReadPktRaces
  intro s t off pos w hs hoff hlo hhi hread j hj old new hold hnew
  obtain ⟨-, rfl⟩ := memRead_next hread
  rw [answer_hRdata, readValue_of_inBuffers (inBuffers_of_mem (by omega)), extract_bufferWord s _ j hj]
  exact hostByte_of_race hs _ j hold hnew

/-! ## TXBUF while a command runs (R107, R274) -/

/-- A host write while BUSY changes no byte of TXBUF (R274). -/
theorem writeEffect_keeps_txbuf {off : BitVec 8} (ha : off.extractLsb' 0 2 = 0) (w : Word) {s : State} (hb : s.busy = true) :
    KeptTxbuf s (writeEffect off.toNat w s) := by
  obtain ⟨-, hkept | ⟨hb', -⟩⟩ := writeEffect_changes ha w s
  · exact hkept
  · simp [hb] at hb'

/-- Settles O46: the sequencer writes RXBUF only, a host write is rejected, and no command line is accepted while BUSY. -/
theorem txbufIsStableWhileBusy : Obligations.TxbufIsStableWhileBusy := by
  unfold Obligations.TxbufIsStableWhileBusy
  intro s t hs hstep ht
  change KeptTxbuf s t
  obtain ⟨-, rest, rfl | rfl⟩ | ⟨-, hmove⟩ := step_cases hstep
  · exact fun _ _ => rfl
  · exact fun _ _ => rfl
  obtain ⟨rest, rfl, -⟩ | ⟨-, rfl, -⟩ | ⟨rest, rfl⟩ | ⟨rest, rfl⟩ | ⟨rest, rfl⟩ | ⟨seen, rest, -, rfl⟩ |
    ⟨off, rest, u, -, hread, rfl⟩ | ⟨off, w, rest, -, ha, rfl⟩ | ⟨w, rest, c, -, -, rfl⟩ | ⟨w, rest, i, -, -, hb, -⟩ :=
    hmove
  · exact seqAdvance_txbuf { s with agenda := rest }
  · exact seqAdvance_txbuf (answer (statusWord s) s)
  · exact fun _ _ => rfl
  · exact fun _ _ => rfl
  · exact fun _ _ => rfl
  · simp at ht
  · obtain ⟨-, rfl⟩ := memRead_next hread
    split <;> exact fun _ _ => rfl
  · exact writeEffect_keeps_txbuf ha w (s := { s with agenda := rest }) hs
  · exact fun _ _ => rfl
  · simp [hs] at hb

/-! ## The wave of a byte exchange (R91, R93) -/

/-- SCLK is high at the second moment of each cycle only, where MISO is sampled (R93). -/
theorem filter_sclk_exchangeWave (m r : Byte) :
    (exchangeWave m r).filter (fun p => p.sclk) =
      List.zipWith (fun b c => { csN := false, sclk := true, mosi := b, miso := some c }) (msbFirst m) (msbFirst r) := rfl

/-- The bits of a byte, most significant first, make up the byte (R91). -/
theorem assembleBits_msbFirst (b : Byte) : assembleBits (msbFirst b) = b := by
  apply BitVec.eq_of_getLsbD_eq
  intro k hk
  simp only [assembleBits, msbFirst, List.foldl_cons, List.foldl_nil]
  interval_cases k <;> simp

/-- Settles O7: the moments one by one, and the two bytes from the levels at the high ones. -/
theorem exchangeShiftsMostSignificantBitFirst : Obligations.ExchangeShiftsMostSignificantBitFirst := by
  unfold Obligations.ExchangeShiftsMostSignificantBitFirst
  intro mosi m r
  have hwave : BusEvent.wave mosi (.xfer m r) = exchangeWave m r := rfl
  simp only [hwave, filter_sclk_exchangeWave]
  refine ⟨rfl, fun k hk => ?_, rfl, rfl, rfl, assembleBits_msbFirst m, assembleBits_msbFirst r⟩
  interval_cases k <;> exact ⟨rfl, rfl, rfl⟩

end Sys2Proof.Machine
end

section
/-! PROOF. The memory family: the sequencer's steps. The MISO-low wait (R97), and the refinement of a command that runs as one
step by the machine's own steps (R104, R105, R270, R276; log entry 1): a command stops in its first step or not at all, so that
every later sequencer step answers, and the machine makes one per move, or by itself. -/

namespace Sys2Proof.Machine

/-- Settles O43: the wait stays at a high level and goes on at a low one. -/
theorem misoLowWaitHoldsTheSequencer : Obligations.MisoLowWaitHoldsTheSequencer := by
  unfold Obligations.MisoLowWaitHoldsTheSequencer
  intro s op rest w hs
  refine ⟨_, seqStep_eq_microStep hs (by simp) (by simp), ?_⟩
  cases hso : s.soAt 0
  · rw [microStep_waitSo_low op rest w (s := clockEdge s) hso]
    exact ⟨rfl, rfl, rfl, rfl, rfl⟩
  · rw [microStep_waitSo_high op rest w (s := clockEdge s) hso]
    exact ⟨rfl, rfl, rfl, rfl, rfl⟩

/-! ## Where a running command can stop (R276, R278, R312) -/

/-- No check is left after the step the sequencer stands at. -/
def State.UncheckedTail (s : State) : Prop := ∀ op pos w, s.seq = .run op pos w → noChecks pos.tail = true

/-- No check is left, the step the sequencer stands at included. -/
def State.Unchecked (s : State) : Prop := ∀ op pos w, s.seq = .run op pos w → noChecks pos = true

theorem State.Unchecked.tail {s : State} (h : s.Unchecked) : s.UncheckedTail := fun op pos w hs =>
  noChecks_tail (h op pos w hs)

theorem unchecked_of_run {s : State} {op : Operation} {pos : List MicroOp} {w : Work} (hs : s.seq = .run op pos w)
    (hpos : noChecks pos = true) : s.Unchecked := by
  intro op' pos' w' hs'
  rw [hs] at hs'
  obtain ⟨-, rfl, -⟩ := Seq.run.inj hs'
  exact hpos

theorem unchecked_of_idle {s : State} (hs : s.seq = .idle) : s.Unchecked := by
  intro op pos w hs'
  simp [hs] at hs'

/-- A command is accepted with a check at its first step at most. -/
theorem accept_uncheckedTail (i : Instr) (s : State) : (accept i (bodyOf i) s).UncheckedTail := by
  intro op pos w hs
  rw [accept_seq] at hs
  obtain ⟨-, rfl, -⟩ := Seq.run.inj hs
  exact noChecks_bodyOf_tail i _

theorem microStep_unchecked (op : Operation) (m : MicroOp) {rest : List MicroOp} (hrest : noChecks rest = true) (w : Work)
    {s : State} (hs : s.seq = .run op (m :: rest) w) : (microStep op m rest w s).Unchecked := by
  cases m with
  | complete c => exact unchecked_of_idle rfl
  | waitSo =>
    cases hso : s.soAt 0
    · rw [microStep_waitSo_low _ _ _ hso]
      exact unchecked_of_run rfl hrest
    · rw [microStep_waitSo_high _ _ _ hso]
      exact unchecked_of_run hs hrest
  | pktLength =>
    simp only [microStep, decideLength]
    split
    · exact unchecked_of_run rfl (noChecks_packetFlush _)
    · exact unchecked_of_run rfl (noChecks_packetTail _ _ _)
  | needTx _ | needTables | csLow | xfer _ | xferTx _ | csHigh | delayStart _ | delayEnd _ | rxStore | latchLqi =>
    exact unchecked_of_run rfl hrest

/-- A sequencer step leaves no check behind. -/
theorem seqAdvance_unchecked {s : State} (h : s.UncheckedTail) : (seqAdvance s).Unchecked := by
  unfold seqAdvance
  split
  · exact unchecked_of_idle ‹_›
  · exact unchecked_of_run ‹_› rfl
  · rename_i op m rest w hs
    exact microStep_unchecked op m (h _ _ _ hs) w (s := clockEdge s) hs

/-- A sequencer step that is no check answers (R276). -/
theorem seqStep_of_unchecked {s : State} (h : s.Unchecked) : seqStep s = .next (seqAdvance s) := by
  unfold seqStep
  split
  · exact absurd (h _ _ _ ‹_›) (by simp [noChecks_cons, isCheck])
  · exact absurd (h _ _ _ ‹_›) (by simp [noChecks_cons, isCheck])
  · rfl

/-- Each sequencer step from `s` on answers. -/
def State.NeverStops (s : State) : Prop := ∀ k, seqStep (seqAdvance^[k] s) = .next (seqAdvance (seqAdvance^[k] s))

theorem State.NeverStops.first {s : State} (h : s.NeverStops) : seqStep s = .next (seqAdvance s) := h 0

theorem State.NeverStops.advance {s : State} (h : s.NeverStops) : (seqAdvance s).NeverStops := fun k => h (k + 1)

/-- A command that passes its first step never stops (R276, R278). -/
theorem neverStops_of_first {s : State} (h : s.UncheckedTail) (hfirst : seqStep s = .next (seqAdvance s)) :
    s.NeverStops := by
  have unchecked : ∀ k, (seqAdvance^[k + 1] s).Unchecked := by
    intro k
    induction k with
    | zero => exact seqAdvance_unchecked h
    | succ k ih =>
      rw [Function.iterate_succ_apply']
      exact seqAdvance_unchecked ih.tail
  intro k
  cases k with
  | zero => exact hfirst
  | succ k => exact seqStep_of_unchecked (unchecked k)

/-! ## The sequencer does not look at the moves to come (R104) -/

theorem complete_setAgenda (c : Completion) (w : Work) (s : State) (l : List Move) :
    complete c w { s with agenda := l } = { complete c w s with agenda := l } := by
  cases c with
  | packet =>
    simp only [complete, writeResult]
    split <;> rfl
  | plain | rdata | configured | malformed | rssiReceived | rssiOperand => rfl

theorem microStep_setAgenda (op : Operation) (m : MicroOp) (rest : List MicroOp) (w : Work) (s : State) (l : List Move) :
    microStep op m rest w { s with agenda := l } = { microStep op m rest w s with agenda := l } := by
  cases m with
  | complete c => exact complete_setAgenda c w s l
  | waitSo =>
    cases hso : s.soAt 0
    · rw [microStep_waitSo_low _ _ _ hso, microStep_waitSo_low _ _ _ (s := { s with agenda := l }) hso]
    · rw [microStep_waitSo_high _ _ _ hso, microStep_waitSo_high _ _ _ (s := { s with agenda := l }) hso]
  | pktLength =>
    simp only [microStep, decideLength]
    split <;> rfl
  | needTx _ | needTables | csLow | xfer _ | xferTx _ | csHigh | delayStart _ | delayEnd _ | rxStore | latchLqi => rfl

theorem seqAdvance_setAgenda (s : State) (l : List Move) :
    seqAdvance { s with agenda := l } = { seqAdvance s with agenda := l } := by
  simp only [seqAdvance]
  split
  · rfl
  · rfl
  · exact microStep_setAgenda _ _ _ _ (clockEdge s) l

/-- The outcome with other moves to come. -/
def withMoves (l : List Move) : Host.Outcome State Fault Refusal → Host.Outcome State Fault Refusal
  | .next t => .next { t with agenda := l }
  | .fault f => .fault f
  | .refused r => .refused r

theorem seqStep_setAgenda (s : State) (l : List Move) : seqStep { s with agenda := l } = withMoves l (seqStep s) := by
  have htx : ∀ n, txWritten { s with agenda := l } n = txWritten s n := fun _ => rfl
  simp only [seqStep, htx, seqAdvance_setAgenda]
  split
  · split <;> rfl
  · split_ifs <;> rfl
  · rfl

/-! ## The machine's own steps -/

/-- A run goes on from where its first step leads. -/
theorem core_run_succ {M : Host.Core} {s t : M.State} (h : M.step s = .next t) (n : Nat) : M.run (n + 1) s = M.run n t := by
  rw [Host.Core.run, h]

theorem run_succ_of_step {s t : State} (h : step s = .next t) (n : Nat) :
    Host.Core.run Sys2Proof.core (n + 1) s = Host.Core.run Sys2Proof.core n t :=
  core_run_succ (M := Sys2Proof.core) h n

/-- The sequencer's move is its next step (R104). -/
theorem step_sequencerMove {s : State} {rest : List Move} (hr : s.rstN = true) :
    step { s with agenda := .sequencer :: rest } = seqStep { s with agenda := rest } := by
  simp [step, machineMove, hr, moveRunning]

/-- Sequencer moves that come first in the agenda are made first (R104). -/
theorem run_sequencerMoves (n : Nat) {s : State} (hr : s.rstN = true) (h : s.NeverStops) (l : List Move) :
    Host.Core.run Sys2Proof.core n { s with agenda := List.replicate n .sequencer ++ l } =
      .next { seqAdvance^[n] s with agenda := l } := by
  induction n generalizing s with
  | zero => rfl
  | succ n ih =>
    have hstep : step { s with agenda := List.replicate (n + 1) .sequencer ++ l } =
        .next { seqAdvance s with agenda := List.replicate n .sequencer ++ l } := by
      refine (step_sequencerMove hr).trans ?_
      rw [seqStep_setAgenda, h.first]
      rfl
    obtain ⟨-, -, hrst, -⟩ := seqAdvance_keeps s
    rw [run_succ_of_step hstep, ih (hrst.trans hr) h.advance, Function.iterate_succ_apply]

/-- With no move to come the sequencer runs by itself (R104). -/
theorem run_byItself (n : Nat) {s : State} (hr : s.rstN = true) (h : s.NeverStops) (ha : s.agenda = []) :
    Host.Core.run Sys2Proof.core n s = .next (seqAdvance^[n] s) := by
  induction n generalizing s with
  | zero => rfl
  | succ n ih =>
    have hstep : step s = .next (seqAdvance s) := by
      simpa [step, machineMove, ha, hr] using h.first
    obtain ⟨-, hagenda, hrst, -⟩ := seqAdvance_keeps s
    rw [run_succ_of_step hstep, ih (hrst.trans hr) h.advance (hagenda.trans ha), Function.iterate_succ_apply]

/-- A run of the sequencer is some number of its steps. -/
theorem runSeq_eq_iterate (fuel : Nat) (s : State) : ∃ n, runSeq fuel s = seqAdvance^[n] s := by
  induction fuel generalizing s with
  | zero => exact ⟨0, rfl⟩
  | succ fuel ih =>
    unfold runSeq
    split
    · exact ⟨0, rfl⟩
    · obtain ⟨n, e⟩ := ih (seqAdvance s)
      exact ⟨n + 1, e⟩

/-- No run of the sequencer changes the moves to come. -/
theorem runSeq_agenda (n : Nat) (s : State) : (runSeq n s).agenda = s.agenda :=
  runSeq_induct (P := fun u => u.agenda = s.agenda) (fun u hu => by
    obtain ⟨-, hagenda, -⟩ := seqAdvance_keeps u
    exact hagenda.trans hu) n rfl

/-- What `runSeq` reaches, the machine reaches by its own steps, with moves to come and without (R104). -/
theorem run_reaches_runSeq (fuel : Nat) {s : State} (hr : s.rstN = true) (h : s.NeverStops) :
    ∃ n, Host.Core.run Sys2Proof.core n { s with agenda := List.replicate n .sequencer ++ s.agenda } =
        .next (runSeq fuel s) ∧
      (s.agenda = [] → Host.Core.run Sys2Proof.core n s = .next (runSeq fuel s)) := by
  have hagenda := runSeq_agenda fuel s
  obtain ⟨n, e⟩ := runSeq_eq_iterate fuel s
  rw [e] at hagenda ⊢
  refine ⟨n, ?_, run_byItself n hr h⟩
  rw [run_sequencerMoves n hr h, ← hagenda]

/-! ## The refinement -/

/-- The CMD write of a command's word accepts it, when BUSY = 0 (R270). -/
theorem memWrite_cmd {s : State} {w : Word} {i : Instr} (hb : s.busy = false) (hd : decode w = .cmd i) :
    memWrite 0x00 w 0xF s = .next (accept i (bodyOf i) { s with hErr := false }) := by
  have hsubmit : writeEffect (0x00 : BitVec 8).toNat w s = accept i (bodyOf i) s := by
    simp [writeEffect, submit, hb, hd]
  have hbody : bodyOf i (capture i { s with hErr := false }) = bodyOf i (capture i s) := bodyOf_congr i rfl rfl
  rw [memWrite_of_aligned (by decide), hsubmit]
  simp only [accept, hbody]
  rfl

/-- Settles O42: the command's run is some number of sequencer steps from the accepted state, none of which stops. -/
theorem sequencerStepsReachExec : Obligations.SequencerStepsReachExec := by
  unfold Obligations.SequencerStepsReachExec
  intro s t w i ⟨hr, hb⟩ hd hexec
  rw [exec_eq_runCommand] at hexec
  obtain ⟨-, ⟨hb', -⟩ | ⟨-, c, hc, -⟩ | ⟨-, -, hfirst, rfl⟩⟩ := runCommand_next hexec
  · simp [hb] at hb'
  · simp [operandCheck_of_decode hd] at hc
  have hnever := neverStops_of_first (accept_uncheckedTail i _) hfirst
  have hrst : (accept i (bodyOf i) { s with hErr := false }).rstN = true := hr
  obtain ⟨n, hmoves, hself⟩ := run_reaches_runSeq (runFuel + 1) hrst hnever
  exact ⟨_, n, memWrite_cmd hb hd, hmoves, hself⟩

end Sys2Proof.Machine
end

section
/-! PROOF. The encoding family: Decode's check order and its inverse, Encode (R120 to R124), the assembler's lines (R134 to
R136), and the SPI header bytes (R125 to R127). Decode is read through the row of R122 that a word meets: the row fixes the
word's OP and, by its mask, which fields are zero. -/

namespace Sys2Proof

open Sys2Proof.Machine

/-! ## The rows of R122 and the fields of a word that meets one -/

/-- The fields of a masked word are the masked fields (R120). -/
theorem fieldsOf_and (w m : Word) :
    fieldsOf (w &&& m) =
      { op := (fieldsOf w).op &&& (fieldsOf m).op, a := (fieldsOf w).a &&& (fieldsOf m).a,
        d := (fieldsOf w).d &&& (fieldsOf m).d, n := (fieldsOf w).n &&& (fieldsOf m).n } := by
  simp [fieldsOf, BitVec.extractLsb'_and]

/-- The index `A[5:0]` of a word is its bits 13:8 (R120, R124). -/
theorem index_fieldsOf (w : Word) : (fieldsOf w).a.extractLsb' 0 6 = w.extractLsb' 8 6 := by
  apply BitVec.eq_of_getLsbD_eq
  intro k hk
  have hk' : k < 8 := by omega
  simp [fieldsOf, hk, hk']

/-- The OP values of the rows are distinct, so each row is the row of its own OP (R121, R122). -/
theorem rowOf_op : ∀ r ∈ rows, rowOf r.op = some r := by decide

theorem mem_rows_of_rowOf {op : BitVec 4} {r : Row} (h : rowOf op = some r) : r ∈ rows ∧ r.op = op := by
  refine ⟨List.mem_of_find?_eq_some h, ?_⟩
  simpa using List.find?_some h

/-- A word that meets a row's mask and match value has the row's OP (R122). -/
theorem op_of_match {w : Word} {r : Row} (hr : r ∈ rows) (hw : w &&& r.mask = r.value) : (fieldsOf w).op = r.op := by
  have hrow : ∀ r ∈ rows, (fieldsOf r.mask).op = BitVec.allOnes 4 ∧ (fieldsOf r.value).op = r.op := by decide
  obtain ⟨hmask, hvalue⟩ := hrow r hr
  calc (fieldsOf w).op
    _ = (fieldsOf w).op &&& (fieldsOf r.mask).op := by rw [hmask, BitVec.and_allOnes]
    _ = (fieldsOf (w &&& r.mask)).op := by rw [fieldsOf_and]
    _ = r.op := by rw [hw, hvalue]

/-- Every row's mask holds the reserved bits [7:4] and 31 to zero, so a word that meets it is the word of its fields (R120,
R122). -/
theorem word_fieldsOf_of_match {w : Word} {r : Row} (hr : r ∈ rows) (hw : w &&& r.mask = r.value) :
    (fieldsOf w).word = w := by
  have hrow : ∀ r ∈ rows, r.mask &&& 0x800000F0#32 = 0x800000F0#32 ∧ r.value &&& 0x800000F0#32 = 0 := by decide
  obtain ⟨hmask, hvalue⟩ := hrow r hr
  apply word_fieldsOf
  rw [← hmask, ← BitVec.and_assoc, hw, hvalue]

/-- Every OP with a row names a command, whatever the other fields hold (R121, R124). -/
theorem exists_instrOf_of_row {r : Row} (hr : r ∈ rows) (f : Fields) : ∃ i, instrOf { f with op := r.op } = some i := by
  fin_cases hr <;> exact ⟨_, rfl⟩

/-- A byte whose two top bits are zero is its low six bits (R122, R124). -/
theorem setWidth_extractLsb'_of_top_zero :
    ∀ a : Byte, a &&& 0xC0 = 0 → (a.extractLsb' 0 6).setWidth 8 = a := by decide

/-- The fields a command does not use are those its row of R122 holds to zero, so its fields are the word's (R124). -/
theorem fields_of_match {w : Word} {r : Row} {i : Instr} (hr : r ∈ rows) (hw : w &&& r.mask = r.value)
    (hi : instrOf (fieldsOf w) = some i) : i.fields = fieldsOf w := by
  have hbyte (x : Byte) : x &&& 255#8 = x := BitVec.and_allOnes
  have hcount (x : BitVec 7) : x &&& 127#7 = x := BitVec.and_allOnes
  have hop := op_of_match hr hw
  have hfixed := (fieldsOf_and w r.mask).symm
  rw [hw] at hfixed
  generalize fieldsOf w = f at hop hfixed hi
  obtain ⟨op, a, d, n⟩ := f
  obtain rfl : op = r.op := hop
  fin_cases hr <;> obtain rfl := Option.some.inj hi
  all_goals
    simp only [fieldsOf, Fields.mk.injEq] at hfixed
    simp_all [Instr.fields, setWidth_extractLsb'_of_top_zero]

/-! ## Decode (R123) -/

/-- What Decode answers for the command a word's fields name: the code of its operand check, or the command (R123). -/
def checked (i : Instr) : Decoded := (operandCheck i).elim (.cmd i) .reject

theorem checked_eq_cmd_iff (j i : Instr) : checked j = .cmd i ↔ j = i ∧ i.wf = true := by
  rw [← operandCheck_eq_none, checked]
  cases hj : operandCheck j with
  | none => simpa using fun h : j = i => h ▸ hj
  | some c => simpa using fun h : j = i => by simp [← h, hj]

theorem checked_strobe (a : Byte) :
    checked (.strobe a) = if a ∈ strobeSet then .cmd (.strobe a) else .reject .illegalStrobe := by
  by_cases h : a ∈ strobeSet <;> simp [checked, operandCheck, h]

theorem checked_writeBurst (a : Index) (n : BitVec 7) :
    checked (.writeBurst a n) = if n.toNat > 64 then .reject .badLength else .cmd (.writeBurst a n) := by
  by_cases h : n.toNat > 64 <;> simp only [checked, operandCheck, h, if_true, if_false, Option.elim]

theorem checked_tx (n : BitVec 7) :
    checked (.tx n) = if n.toNat = 0 ∨ n.toNat > 64 then .reject .badLength else .cmd (.tx n) := by
  by_cases h : n.toNat = 0 ∨ n.toNat > 64 <;> simp only [checked, operandCheck, h, if_true, if_false, Option.elim]

/-- Decode of a word that meets its row: what the operand checks make of the command its fields name (R123). -/
theorem decode_of_match {w : Word} {r : Row} {i : Instr} (hr : r ∈ rows) (hw : w &&& r.mask = r.value)
    (hi : instrOf { fieldsOf w with op := r.op } = some i) : decode w = checked i := by
  have hop := op_of_match hr hw
  rw [← hop] at hi
  simp only [decode, hop, rowOf_op r hr, hw, hi, ne_eq, not_true_eq_false, if_false, checked]
  cases operandCheck i <;> rfl

/-- A word with a row's OP that does not meet the row is rejected for its reserved fields (R123). -/
theorem decode_of_mismatch {w : Word} {r : Row} (hr : r ∈ rows) (hop : (fieldsOf w).op = r.op)
    (hw : w &&& r.mask ≠ r.value) : decode w = .reject .reservedField := by
  simp only [decode, hop, rowOf_op r hr, if_pos hw]

/-- A word whose OP has no row is rejected as illegal (R123). -/
theorem decode_of_no_row {w : Word} (h : rowOf (fieldsOf w).op = none) : decode w = .reject .illegalOp := by
  simp only [decode, h]

/-- The accepted words: those that meet their row and whose fields name a well-formed command (R123). -/
theorem decode_eq_cmd_iff (w : Word) (i : Instr) :
    decode w = .cmd i ↔ ∃ r ∈ rows, w &&& r.mask = r.value ∧ instrOf (fieldsOf w) = some i ∧ i.wf = true := by
  constructor
  · intro h
    cases hrow : rowOf (fieldsOf w).op with
    | none => simp [decode_of_no_row hrow] at h
    | some r =>
      obtain ⟨hr, hop⟩ := mem_rows_of_rowOf hrow
      by_cases hw : w &&& r.mask = r.value
      · obtain ⟨j, hj⟩ := exists_instrOf_of_row hr (fieldsOf w)
        rw [decode_of_match hr hw hj, checked_eq_cmd_iff] at h
        obtain ⟨rfl, hwf⟩ := h
        rw [hop] at hj
        exact ⟨r, hr, hw, hj, hwf⟩
      · simp [decode_of_mismatch hr hop.symm hw] at h
  · rintro ⟨r, hr, hw, hi, hwf⟩
    have hf : { fieldsOf w with op := r.op } = fieldsOf w := by rw [← op_of_match hr hw]
    rw [decode_of_match hr hw (hf ▸ hi), checked_eq_cmd_iff]
    exact ⟨rfl, hwf⟩

/-- A command's fields are those of every word that decodes to it (R124). -/
theorem fields_of_decode {w : Word} {i : Instr} (h : decode w = .cmd i) : i.fields = fieldsOf w := by
  obtain ⟨r, hr, hw, hi, -⟩ := (decode_eq_cmd_iff w i).1 h
  exact fields_of_match hr hw hi

/-! ## Decode and Encode are inverse -/

/-- Settles O1: the word of a command meets its row (R122), and its fields name the command. -/
theorem decodeOfEncodeIsTheCommand : Obligations.DecodeOfEncodeIsTheCommand := by
  unfold Obligations.DecodeOfEncodeIsTheCommand
  intro i hwf
  obtain ⟨r, hrow, hmatch⟩ := encode_and_mask i
  have hi : instrOf (fieldsOf (encode i)) = some i := by rw [encode, fieldsOf_word, instrOf_fields]
  exact (decode_eq_cmd_iff _ _).2 ⟨r, (mem_rows_of_rowOf hrow).1, hmatch, hi, hwf⟩

/-- Settles O2: an accepted word is the word of its fields, and these are the command's fields. -/
theorem encodeOfDecodeIsTheWord : Obligations.EncodeOfDecodeIsTheWord := by
  unfold Obligations.EncodeOfDecodeIsTheWord
  intro w i h
  obtain ⟨r, hr, hw, -, hwf⟩ := (decode_eq_cmd_iff w i).1 h
  refine ⟨hwf, ?_⟩
  calc encode i
    _ = (fieldsOf w).word := congrArg Fields.word (fields_of_decode h)
    _ = w := word_fieldsOf_of_match hr hw

/-! ## The order of Decode's checks (R123) -/

/-- Settles O3: the OP without a row, the row not met, and then row by row the operands and their checks. -/
theorem decodeFollowsTheCheckOrder : Obligations.DecodeFollowsTheCheckOrder := by
  unfold Obligations.DecodeFollowsTheCheckOrder
  intro w op a idx d n
  have hidx : (fieldsOf w).a.extractLsb' 0 6 = idx := index_fieldsOf w
  refine ⟨?illegalOp, ?reservedField, ?strobe, ?readReg, ?readStatus, ?writeReg, ?writeBurst, ?configure, ?rx, ?tx,
    ?readPkt, ?readRssi, ?decodeRssi, fun i => fields_of_decode, ?busyFirst⟩
  case illegalOp =>
    have hnone : ∀ op ∈ [0x0#4, 0x6#4, 0x7#4, 0xE#4, 0xF#4], rowOf op = none := by decide
    exact fun hop => decode_of_no_row (hnone op hop)
  case reservedField =>
    intro r hr hop hw
    refine decode_of_mismatch (r := ⟨r.1, r.2.1, r.2.2⟩) ?_ hop hw
    exact List.mem_map_of_mem (f := fun r => Row.mk r.1 r.2.1 r.2.2) hr
  case strobe => exact fun hw => (decode_of_match (r := ⟨0x1, _, _⟩) (by decide) hw rfl).trans (checked_strobe a)
  case readReg => exact fun hw => hidx ▸ decode_of_match (r := ⟨0x2, _, _⟩) (by decide) hw rfl
  case readStatus => exact fun hw => hidx ▸ decode_of_match (r := ⟨0x3, _, _⟩) (by decide) hw rfl
  case writeReg => exact fun hw => hidx ▸ decode_of_match (r := ⟨0x4, _, _⟩) (by decide) hw rfl
  case writeBurst =>
    exact fun hw => hidx ▸ (decode_of_match (r := ⟨0x5, _, _⟩) (by decide) hw rfl).trans (checked_writeBurst _ n)
  case configure => exact fun hw => hw ▸ by decide
  case rx => exact fun hw => hw ▸ by decide
  case tx => exact fun hw => (decode_of_match (r := ⟨0xA, _, _⟩) (by decide) hw rfl).trans (checked_tx n)
  case readPkt => exact fun hw => decode_of_match (r := ⟨0xB, _, _⟩) (by decide) hw rfl
  case readRssi => exact fun hw => hw ▸ by decide
  case decodeRssi => exact fun hw => decode_of_match (r := ⟨0xD, _, _⟩) (by decide) hw rfl
  case busyFirst =>
    intro s hb
    exact if_pos hb

/-! ## The assembler (R134 to R136) -/

/-- The word of fields as the assembler forms it: each field shifted to its place (R120, R134). -/
theorem word_eq_or (f : Fields) :
    f.word = f.op.setWidth 32 ||| f.a.setWidth 32 <<< 8 ||| f.d.setWidth 32 <<< 16 ||| f.n.setWidth 32 <<< 24 := by
  apply BitVec.eq_of_getLsbD_eq
  intro k hk
  rw [getLsbD_word]
  interval_cases k <;> simp

/-- A command's word as the assembler forms it (R134). -/
theorem encode_eq_or (i : Instr) :
    encode i = i.fields.op.setWidth 32 ||| i.fields.a.setWidth 32 <<< 8 ||| i.fields.d.setWidth 32 <<< 16 |||
      i.fields.n.setWidth 32 <<< 24 := word_eq_or i.fields

/-- A line emits a command's word for operands in range and no word for others (R134). -/
theorem emitted_congr {p q : Prop} [Decidable p] [Decidable q] {w : Word} {i : Instr} (hpq : p ↔ q)
    (hw : q → w = encode i) : (if p then some w else none) = if q then some (encode i) else none :=
  if_ctx_congr hpq (fun hq => congrArg some (hw hq)) fun _ => rfl

/-- Settles O5: in range, the word a line assembles to is the word of the command's fields, each shifted to its place. -/
theorem assemblerEmitsTheEncoding : Obligations.AssemblerEmitsTheEncoding := by
  unfold Obligations.AssemblerEmitsTheEncoding
  have hbyte (x : Nat) (h : x < 256) : (BitVec.ofNat 8 x).setWidth 32 = BitVec.ofNat 32 x :=
    BitVec.setWidth_ofNat_of_le_of_lt (by decide) h
  have hidx (a : Nat) (h : a < 64) : ((BitVec.ofNat 6 a).setWidth 8).setWidth 32 = BitVec.ofNat 32 a := by
    rw [BitVec.setWidth_ofNat_of_le_of_lt (by decide) h, hbyte a (by omega)]
  have hcount (n : Nat) (h : n ≤ 64) : (BitVec.ofNat 7 n).setWidth 32 = BitVec.ofNat 32 n :=
    BitVec.setWidth_ofNat_of_le_of_lt (by decide) (by omega)
  refine ⟨fun s => ?strobe, fun a => ?rdreg, fun a => ?rdstat, fun a d => ?wrreg, fun a n => ?wrburst, by decide,
    by decide, fun n => ?tx, fun c => ?rdpkt, by decide, fun r => ?decrssi, fun p => ⟨?namedWf, ?named⟩⟩
  case strobe => exact emitted_congr (by omega) fun h => by simp [encode_eq_or, Instr.fields, hbyte s h]
  case rdreg => exact emitted_congr (by omega) fun h => by simp [encode_eq_or, Instr.fields, hidx a h]
  case rdstat => exact emitted_congr (by omega) fun h => by simp [encode_eq_or, Instr.fields, hidx a h]
  case wrreg =>
    exact emitted_congr (by omega) fun ⟨ha, hd⟩ => by simp [encode_eq_or, Instr.fields, hidx a ha, hbyte d hd]
  case wrburst =>
    exact emitted_congr (by omega) fun ⟨ha, hn⟩ => by simp [encode_eq_or, Instr.fields, hidx a ha, hcount n hn]
  case tx => exact emitted_congr Iff.rfl fun ⟨_, hn⟩ => by simp [encode_eq_or, Instr.fields, hcount n hn]
  case rdpkt => exact emitted_congr (by omega) fun h => by simp [encode_eq_or, Instr.fields, hbyte c h]
  case decrssi => exact emitted_congr (by omega) fun h => by simp [encode_eq_or, Instr.fields, hbyte r h]
  case namedWf => cases p <;> decide
  case named => simp [assemble, encode_eq_or, Instr.fields]

/-- Settles O4: the assembler, the encoder and the decoder, run on the eight lines of R136. -/
theorem workedEncodingsOfTheSpec : Obligations.WorkedEncodingsOfTheSpec := by
  unfold Obligations.WorkedEncodingsOfTheSpec
  decide

end Sys2Proof

namespace Sys2Proof.Machine

/-! ## The header byte (R125 to R127) -/

/-- Bit 7 of a header is R/W, bit 6 is B, and bits 5:0 are the index (R125). -/
theorem getLsbD_header (r b : Bool) (a : Index) (k : Nat) :
    (header r b a).getLsbD k = if k < 6 then a.getLsbD k else if k = 6 then b else if k = 7 then r else false := by
  have h : header r b a = (BitVec.ofBool r ++ BitVec.ofBool b : BitVec (1 + 1)) ++ a := rfl
  rw [h, BitVec.getLsbD_append, BitVec.getLsbD_append]
  rcases lt_or_ge k 6 with hk | hk
  · simp [hk]
  · obtain ⟨j, rfl⟩ := Nat.exists_eq_add_of_le hk
    match j with
    | 0 | 1 => simp
    | j + 2 =>
      have h7 : 6 + (j + 2) ≠ 7 := by omega
      simp [h7]

/-- Settles O6: each header is its two bits above the index, and each primitive is the transaction of its header and data. -/
theorem headerBytesOfThePrimitives : Obligations.HeaderBytesOfThePrimitives := by
  unfold Obligations.HeaderBytesOfThePrimitives
  refine ⟨by decide, by decide, ?bits, fun p s v a bs => ⟨rfl, rfl, rfl, rfl, rfl⟩, by decide, by decide, by decide,
    by decide, by decide, by decide⟩
  case bits =>
    intro r b a
    refine ⟨getLsbD_header r b a 7, getLsbD_header r b a 6, ?_⟩
    apply BitVec.eq_of_getLsbD_eq
    intro k hk
    simp [getLsbD_header, hk]

end Sys2Proof.Machine
end

section
/-! PROOF. The register-access family: STROBE, READ_REG, READ_STATUS, WRITE_REG and WRITE_BURST, each one transaction (R150, R155,
R160, R165, R170, R176). What a completed command answers is said of the state before its `Complete()`; a read also writes RDATA
from the last byte received (R156, R161). -/

namespace Sys2Proof.Machine

/-! ## What a completed command answers (R42) -/

section
variable {i : Instr} {s u : State} {evs : List BusEvent} {n : Nat}

theorem Ran.completed (h : Ran i s u evs n) (c : Completion) (w : Work) : Completed i (complete c w u) :=
  ⟨rfl, rfl, rfl, (complete_cur ..).trans h.cur⟩

/-- A command that has sent the transactions `bss` and released chip-select answers that (R95, R98). -/
theorem Ran.sent {bss : List (List Byte)} (h : Ran i s u (s.busOf 0 bss) (bss.map List.length).sum) (hcs : u.csN = true)
    (c : Completion) (w : Work) : Sent s (complete c w u) bss :=
  ⟨(complete_trace ..).trans h.trace, (complete_miso ..).trans h.miso, (complete_csN ..).trans hcs⟩

theorem keptBuffers_complete (hmem : u.mem = s.mem) (c : Completion) (w : Work) : KeptBuffers s (complete c w u) := by
  intro a
  rw [complete_mem, hmem]

/-- No completion writes what every command keeps. -/
theorem Ran.keptByCommand (h : Ran i s u evs n) (hmem : u.mem = s.mem) (c : Completion) (w : Work) :
    KeptByCommand s (complete c w u) :=
  ⟨by simp [h.params], by simp [h.agenda], by simp [h.rstN], by simp [h.sclk], by simp [h.err], by simp [h.errCode],
    by simp [h.hRdata], by simp [h.hErr], by simp [h.ram], by simp [h.race],
    fun j _ => keptBuffers_complete hmem c w (txAddr j)⟩

/-- Up to its `Complete()`, CONFIGURE alone has written LIFECYCLE and CONFIG_OK (R190). -/
theorem Ran.keptLifecycle (h : Ran i s u evs n) (hop : i.operation ≠ .configure) : KeptLifecycle s u :=
  ⟨h.lifecycle.trans (if_neg hop), h.configOk.trans (if_neg hop)⟩

end

/-- A command that completes without a result field, other than CONFIGURE, writes no register but BUSY, DONE and CUR (R42). -/
theorem answers_of_plain {i : Instr} {s u : State} {w : Work} {bss : List (List Byte)} (hop : i.operation ≠ .configure)
    (hexec : exec i s = .next (complete .plain w u)) (h : Ran i s u (s.busOf 0 bss) (bss.map List.length).sum)
    (hcs : u.csN = true) (hmem : u.mem = s.mem) :
    ∃ t, exec i s = .next t ∧ Completed i t ∧ Sent s t bss ∧ KeptByCommand s t ∧ KeptLifecycle s t ∧ KeptRdata s t ∧
      KeptRxInfo s t ∧ KeptRssi s t ∧ KeptBuffers s t :=
  ⟨_, hexec, h.completed .plain w, h.sent hcs .plain w, h.keptByCommand hmem .plain w, h.keptLifecycle hop, h.rdata,
    ⟨h.rxCount, h.rxOutcome⟩, h.rssiRaw, keptBuffers_complete hmem .plain w⟩

/-! ## A command of one transaction (R95, R176) -/

/-- A command that is one transaction of given bytes and then `Complete()`: it answers the completed state of the state `u` in
which the bytes have been sent and nothing else has changed, the working value `last` being the last byte received. -/
theorem exec_spiBytes {i : Instr} {s : State} {c : Completion} (bs : List Byte) (h : s.Ready) (hi : operandCheck i = none)
    (hb : bodyOf i (capture i s) = spiBytes s.params bs ++ [.complete c]) (hso : s.SoFree 1) (hlen : bs.length ≤ 64) :
    ∃ u w, exec i s = .next (complete c w u) ∧ Ran i s u (s.busOf 0 [bs]) ([bs].map List.length).sum ∧ u.csN = true ∧
      u.mem = s.mem ∧ w.last = lastReply s 0 bs.length := by
  have hx : [bs.map MicroOp.xfer].map (List.map (sentByte s)) = [bs].map (List.map some) := by simp [sentByte]
  have hfuel : 3 * [bs].length + ([bs].map List.length).sum ≤ runFuel := by
    simp only [List.length_singleton, List.map_singleton, List.sum_singleton, runFuel]
    omega
  obtain ⟨u, w, hexec, hran, hcs, hmem, rfl⟩ := runCommand_txns [bs.map .xfer] [bs] h hi
    (by simpa [spiBytes] using hb) (by simp) hx hso hfuel
  exact ⟨u, _, (exec_eq_runCommand i s).trans hexec, hran, hcs, hmem, by simp⟩

/-- A command that reads one register into RDATA writes there the byte received in the data phase, and else no register but
BUSY, DONE and CUR (R156, R161). -/
theorem exec_read {i : Instr} {s : State} {b : Byte} (hop : i.operation ≠ .configure) (h : s.Ready)
    (hi : operandCheck i = none)
    (hb : bodyOf i (capture i s) = spiBytes s.params [b, s.params.dummyByte] ++ [.complete .rdata]) (hso : s.SoFree 1) :
    ∃ t, exec i s = .next t ∧ Completed i t ∧ Sent s t [[b, s.params.dummyByte]] ∧ t.rdata = s.misoAt 1 ∧
      KeptByCommand s t ∧ KeptLifecycle s t ∧ KeptRxInfo s t ∧ KeptRssi s t ∧ KeptBuffers s t := by
  obtain ⟨u, w, hexec, hran, hcs, hmem, hlast⟩ := exec_spiBytes _ h hi hb hso (by simp)
  exact ⟨_, hexec, hran.completed .rdata w, hran.sent hcs .rdata w, hlast, hran.keptByCommand hmem .rdata w,
    hran.keptLifecycle hop, ⟨hran.rxCount, hran.rxOutcome⟩, hran.rssiRaw, keptBuffers_complete hmem .rdata w⟩

/-! ## A command that checks TXBUF first (R170, R200, R312) -/

/-- A command that checks TXBUF[0..n-1] before its first transaction, from acceptance to the end of the transactions `txs`, when
the bytes are written and no MISO-low wait holds. -/
theorem reaches_checkedTxns {i : Instr} {body : State → List MicroOp} {s : State} {n : Nat} {rest : List MicroOp}
    (txs : List (List MicroOp)) (bss : List (List Byte))
    (hb : body (capture i s) = .needTx n :: ((txs.map (spiTxn s.params)).flatten ++ rest)) (hw : s.TxWritten n)
    (hne : bss ≠ []) (hx : txs.map (List.map (sentByte s)) = bss.map (List.map some)) (hso : s.SoFree bss.length) :
    seqStep (accept i body s) = .next (seqAdvance (accept i body s)) ∧
    ∃ c u w, c ≤ 1 + (3 * bss.length + (bss.map List.length).sum) ∧ Reaches c (accept i body s) u ∧
      u.seq = .run i.operation rest w ∧ u.csN = true ∧ u.mem = s.mem ∧
      Passes (accept i body s) u (s.busOf 0 bss) (bss.map List.length).sum (bss.length * txnWaits s.params) := by
  obtain ⟨hfirst, t, hcheck, htseq, -, htmem, htp⟩ := guard_tx hb hw
  have hparams : t.params = s.params := htp.params
  have hxt : txs.map (List.map (sentByte t)) = bss.map (List.map some) := by
    rw [funext (sentByte_congr htmem htp.ram), hx]
  have hsot : t.SoFree bss.length := Passes.soFree (k := 0) (by simpa using htp) (by simpa using hso)
  obtain ⟨c, u, hc, hr, huseq, hucs, humem, hup⟩ := reaches_txns i.operation rest txs bss t _ hxt (hparams ▸ htseq) hsot
  have hp := htp.trans hup
  rw [htp.busOf, accept_busOf, hparams] at hp
  exact ⟨hfirst, 1 + c, u, _, by omega, hcheck.trans hr, huseq, hucs.trans (if_neg hne), humem.trans htmem, by simpa using hp⟩

/-! ## The commands -/

/-- The header bytes as the statements of this family write them (R126). -/
theorem headers_eq_or (a : Index) :
    readHeader a = 0x80#8 ||| a.setWidth 8 ∧ statusHeader a = 0xC0#8 ||| a.setWidth 8 ∧ writeHeader a = a.setWidth 8 ∧
      burstHeader a = 0x40#8 ||| a.setWidth 8 := by
  obtain ⟨-, hheader, -⟩ := headerBytesOfThePrimitives
  obtain ⟨hread, hstatus, hwrite, hburst⟩ := hheader a
  exact ⟨hread.trans (BitVec.or_comm ..), hstatus.trans (BitVec.or_comm ..), hwrite, hburst.trans (BitVec.or_comm ..)⟩

/-- Settles O21: STROBE's expansion is the transaction of its opcode. -/
theorem strobeSendsItsOpcode : Obligations.StrobeSendsItsOpcode := by
  unfold Obligations.StrobeSendsItsOpcode
  intro s opcode h hwf hso
  obtain ⟨u, w, hexec, hran, hcs, hmem, -⟩ :=
    exec_spiBytes [opcode] h ((operandCheck_eq_none _).mpr hwf) rfl hso (by simp)
  exact answers_of_plain (by simp [Instr.operation]) hexec hran hcs hmem

/-- Settles O22: READ_REG's expansion is a read with the header of a single read. -/
theorem readRegReturnsTheDataByte : Obligations.ReadRegReturnsTheDataByte := by
  unfold Obligations.ReadRegReturnsTheDataByte
  intro s a h hso
  obtain ⟨hheader, -⟩ := headers_eq_or a
  have hidx : curIndex (capture (.readReg a) s) = a := extract_setWidth_index a
  have hbody : bodyOf (.readReg a) (capture (.readReg a) s) =
      spiBytes s.params [0x80#8 ||| a.setWidth 8, s.params.dummyByte] ++ [.complete .rdata] := by
    simp only [bodyOf, bodyReadReg, readRegisterTxn, hidx, hheader, capture_params]
  exact exec_read (by simp [Instr.operation]) h rfl hbody hso

/-- Settles O23: READ_STATUS's expansion is a read with the header of a status read. -/
theorem readStatusReturnsTheDataByte : Obligations.ReadStatusReturnsTheDataByte := by
  unfold Obligations.ReadStatusReturnsTheDataByte
  intro s a h hso
  obtain ⟨-, hheader, -⟩ := headers_eq_or a
  have hidx : curIndex (capture (.readStatus a) s) = a := extract_setWidth_index a
  have hbody : bodyOf (.readStatus a) (capture (.readStatus a) s) =
      spiBytes s.params [0xC0#8 ||| a.setWidth 8, s.params.dummyByte] ++ [.complete .rdata] := by
    simp only [bodyOf, bodyReadStatus, readStatusTxn, hidx, hheader, capture_params]
  exact exec_read (by simp [Instr.operation]) h rfl hbody hso

/-- Settles O24: WRITE_REG's expansion is the transaction of the index and the value. -/
theorem writeRegSendsAddressAndValue : Obligations.WriteRegSendsAddressAndValue := by
  unfold Obligations.WriteRegSendsAddressAndValue
  intro s a v h hso
  obtain ⟨-, -, hheader, -⟩ := headers_eq_or a
  have hidx : curIndex (capture (.writeReg a v) s) = a := extract_setWidth_index a
  have hbody : bodyOf (.writeReg a v) (capture (.writeReg a v) s) =
      spiBytes s.params [a.setWidth 8, v] ++ [.complete .plain] := by
    simp only [bodyOf, bodyWriteReg, writeRegisterTxn, hidx, hheader, capture_params]
    rfl
  obtain ⟨u, w, hexec, hran, hcs, hmem, -⟩ := exec_spiBytes _ h rfl hbody hso (by simp)
  exact answers_of_plain (by simp [Instr.operation]) hexec hran hcs hmem

/-- WRITE_BURST's expansion: the check, the burst of the header and TXBUF[0..n-1], and `Complete()` (R170, R312). -/
theorem bodyWriteBurst_capture (a : Index) (n : BitVec 7) (s : State) :
    bodyOf (.writeBurst a n) (capture (.writeBurst a n) s) =
      .needTx n.toNat :: (([.xfer (burstHeader a) :: (List.range n.toNat).map .xferTx].map (spiTxn s.params)).flatten ++
        [.complete .plain]) := by
  have hidx : curIndex (capture (.writeBurst a n) s) = a := extract_setWidth_index a
  simp only [bodyOf, bodyWriteBurst, writeBurstTxbuf, hidx, List.map_singleton, List.flatten_singleton]
  rfl

/-- Settles O25: after the check of TXBUF, WRITE_BURST is one transaction of the header and the bytes. -/
theorem writeBurstSendsTxbuf : Obligations.WriteBurstSendsTxbuf := by
  unfold Obligations.WriteBurstSendsTxbuf
  intro s a n h hn hw hso
  obtain ⟨-, -, -, hheader⟩ := headers_eq_or a
  rw [← hheader]
  have hx : [MicroOp.xfer (burstHeader a) :: (List.range n.toNat).map .xferTx].map (List.map (sentByte s)) =
      [burstHeader a :: s.txBytes n.toNat].map (List.map some) := by
    simpa [sentByte] using sentByte_txBytes s n.toNat hw
  obtain ⟨hfirst, c, v, w, hc, hr, hvseq, hvcs, hvmem, hp⟩ :=
    reaches_checkedTxns _ _ (bodyWriteBurst_capture a n s) hw (by simp) hx hso
  have hlast := reaches_complete _ _ _ _ hvseq
  have hfuel : c + 1 ≤ runFuel + 1 := by
    simp only [List.map_singleton, List.sum_singleton, List.length_cons, List.length_nil, txBytes_length] at hc
    simp only [runFuel]
    omega
  have hi : operandCheck (.writeBurst a n) = none := if_neg (by omega)
  have hexec : exec (.writeBurst a n) s = .next (complete .plain w (clockEdge v)) := by
    rw [exec_eq_runCommand]
    exact runCommand_of_reaches h hi hfirst (hr.trans hlast) (complete_seq ..) hfuel
  have hran : Ran (.writeBurst a n) s (clockEdge v) _ _ := { hp.ran with }
  exact answers_of_plain (by simp [Instr.operation]) hexec hran hvcs hvmem

end Sys2Proof.Machine
end

section
/-! PROOF. The lifecycle and transmit family: CONFIGURE, RX and TX (R190 to R193, R196, R197, R200 to R203). A composite command is
followed from acceptance through its check, its transactions and its delay to `Complete()`. -/

namespace Sys2Proof.Machine

/-- A command issued while BUSY = 1 is turned away whatever its operands (R272, R273). -/
theorem exec_of_busy {s : State} (hr : s.rstN = true) (hb : s.busy = true) (i : Instr) :
    exec i s = .next (reject .busyCollision s) := by
  rw [exec_eq_runCommand]
  simp [runCommand, hr, hb]

/-- Of the words with RX's OP only the command's own meets its row of R122, whose mask keeps every bit (R197). -/
theorem decode_of_op_rx {w : Word} (hop : w.extractLsb' 0 4 = 0x9) :
    decode w = if w = 0x00000009 then .cmd .rx else .reject .reservedField := by
  split_ifs with hw
  · subst hw
    decide
  · have hmask : w &&& 0xFFFFFFFF = w := BitVec.and_allOnes
    exact decode_of_mismatch (r := ⟨0x9, 0xFFFFFFFF, 0x00000009⟩) (by decide) hop fun hmatch => hw (hmask ▸ hmatch)

/-- Settles O29: RX's expansion is the transaction of its strobe, and its row in the table of R122 keeps every bit. -/
theorem rxSendsTheEnterRxStrobe : Obligations.RxSendsTheEnterRxStrobe := by
  unfold Obligations.RxSendsTheEnterRxStrobe
  refine ⟨fun s h hso => ?_, fun s hr hb => exec_of_busy hr hb .rx, fun w hop => decode_of_op_rx hop⟩
  obtain ⟨u, w, hexec, hran, hcs, hmem, -⟩ := exec_spiBytes [0x34] h (i := .rx) rfl rfl hso (by simp)
  exact answers_of_plain (by simp [Instr.operation]) hexec hran hcs hmem

/-! ## From acceptance to the end of a command -/

/-- Transactions of given bytes one after another (R95), the events and draws counted from an earlier state `a`. -/
theorem Passes.reaches_bytes {a s : State} {evs : List BusEvent} {n j : Nat} (hp : Passes a s evs n (j * txnWaits a.params))
    {op : Operation} {rest : List MicroOp} {w : Work} (bss : List (List Byte))
    (hs : s.seq = .run op ((bss.map (spiBytes a.params)).flatten ++ rest) w) (hso : a.SoFree (j + bss.length)) :
    ∃ c t, c ≤ 3 * bss.length + (bss.map List.length).sum ∧ Reaches c s t ∧
      t.seq = .run op rest { w with last := lastReply s w.last (bss.map List.length).sum } ∧
      (t.csN = if bss = [] then s.csN else true) ∧ t.mem = s.mem ∧
      Passes a t (evs ++ a.busOf n bss) (n + (bss.map List.length).sum) ((j + bss.length) * txnWaits a.params) := by
  have hx : (bss.map (List.map MicroOp.xfer)).map (List.map (sentByte s)) = bss.map (List.map some) := by
    simp [sentByte, Function.comp_def]
  have hseq : s.seq = .run op (((bss.map (List.map .xfer)).map (spiTxn s.params)).flatten ++ rest) w := by
    rw [hs, hp.params, List.map_map]
    rfl
  obtain ⟨c, t, hc, hr, htseq, htcs, htmem, htp⟩ := reaches_txns op rest _ bss s w hx hseq (hp.soFree hso)
  rw [hp.busOf, hp.params] at htp
  exact ⟨c, t, hc, hr, htseq, htcs, htmem, by simpa [Nat.add_mul] using hp.trans htp⟩

/-- A command that has come to its `Complete()` within the fuel answers the completed state (R42, R135). -/
theorem exec_of_reaches_complete {i : Instr} {s u : State} {c : Completion} {w : Work} {evs : List BusEvent} {k n m : Nat}
    (h : s.Ready) (hi : operandCheck i = none)
    (hfirst : seqStep (accept i (bodyOf i) s) = .next (seqAdvance (accept i (bodyOf i) s)))
    (hr : Reaches k (accept i (bodyOf i) s) u) (hk : k ≤ runFuel) (hu : u.seq = .run i.operation [.complete c] w)
    (hp : Passes (accept i (bodyOf i) s) u evs n m) :
    exec i s = .next (complete c w (clockEdge u)) ∧ Ran i s (clockEdge u) evs n := by
  refine ⟨?_, { hp.ran with }⟩
  rw [exec_eq_runCommand]
  exact runCommand_of_reaches h hi hfirst (hr.trans (reaches_complete _ _ _ _ hu)) (complete_seq ..) (by omega)

/-! ## TX (R200 to R203) -/

/-- The transactions of TX of `n` bytes (R200, R201). -/
def State.txTransactions (s : State) (n : BitVec 7) : List (List Byte) :=
  [[0x36], [0x3B], [0x3F, n.setWidth 8], 0x7F :: s.txBytes n.toNat, [0x35]]

/-- The exchanges that send them, the payload's bytes being read from TXBUF (R107). -/
def txExchanges (n : BitVec 7) : List (List MicroOp) :=
  [[.xfer 0x36], [.xfer 0x3B], [.xfer 0x3F, .xfer (n.setWidth 8)], .xfer 0x7F :: (List.range n.toNat).map .xferTx,
    [.xfer 0x35]]

theorem txTransactions_bytes (s : State) (n : BitVec 7) : ((s.txTransactions n).map List.length).sum = n.toNat + 6 := by
  simp [State.txTransactions, txBytes_length]
  omega

/-- TX's expansion: the check, the five transactions, the delay and `Complete()` (R200, R202, R312). -/
theorem bodyTx_capture (n : BitVec 7) (s : State) :
    bodyOf (.tx n) (capture (.tx n) s) =
      .needTx n.toNat :: (((txExchanges n).map (spiTxn s.params)).flatten ++
        [.delayStart .tx, .delayEnd .tx, .complete .plain]) := by
  have hlen : BitVec.ofNat 8 n.toNat = n.setWidth 8 := BitVec.ofNat_toNat 8 n
  have hone : writeHeader fifoAddr = 0x3F := by decide
  have hburst : burstHeader fifoAddr = 0x7F := by decide
  have hcount : curCount (capture (.tx n) s) = n.toNat := rfl
  simp [bodyOf, bodyTx, txExchanges, strobeTxn, writeRegisterTxn, writeBurstTxbuf, spiBytes, hcount, hlen, hone, hburst]

theorem sentByte_txExchanges {s : State} {n : BitVec 7} (hw : s.TxWritten n.toNat) :
    (txExchanges n).map (List.map (sentByte s)) = (s.txTransactions n).map (List.map some) := by
  simpa [txExchanges, State.txTransactions, sentByte] using sentByte_txBytes s n.toNat hw

theorem operandCheck_tx {n : BitVec 7} (hpos : 1 ≤ n.toNat) (hn : n.toNat ≤ 64) : operandCheck (.tx n) = none :=
  if_neg (by omega)

/-- Settles O30: after the check of TXBUF the five transactions are sent, and the delay follows them. -/
theorem txSendsTheFramedPacket : Obligations.TxSendsTheFramedPacket := by
  unfold Obligations.TxSendsTheFramedPacket
  intro s n h hpos hn hw hso
  obtain ⟨hfirst, c, u, w, hc, hsent, huseq, hucs, humem, hup⟩ := reaches_checkedTxns _ (s.txTransactions n)
    (bodyTx_capture n s) hw (by simp [State.txTransactions]) (sentByte_txExchanges hw) hso
  obtain ⟨v, hdelay, hvseq, hvcs, hvmem, hvp⟩ := reaches_delay _ _ _ _ _ huseq
  rw [txTransactions_bytes] at hc hup
  have hlen : (s.txTransactions n).length = 5 := rfl
  have hfuel : c + 2 ≤ runFuel := by
    simp only [runFuel]
    omega
  obtain ⟨hexec, hran⟩ := exec_of_reaches_complete h (operandCheck_tx hpos hn) hfirst (hsent.trans hdelay)
    hfuel hvseq (hup.trans hvp)
  have hmem : (clockEdge v).mem = s.mem := hvmem.trans humem
  refine ⟨_, hexec, hran.completed .plain w, ?_, hran.miso, hvcs.trans hucs, hran.keptByCommand hmem .plain w,
    hran.keptLifecycle (by simp [Instr.operation]), hran.rdata, ⟨hran.rxCount, hran.rxOutcome⟩, hran.rssiRaw,
    keptBuffers_complete hmem .plain w⟩
  simpa [State.txTransactions] using hran.trace

/-! ## CONFIGURE (R190 to R193) -/

/-- The transactions of CONFIGURE after the settle delay: PROFILE's entries in order, and the PATABLE burst (R191). -/
def State.tableTransactions (s : State) : List (List Byte) :=
  s.params.profile.map (fun e => [e.index.setWidth 8, e.value]) ++ [0x7E :: s.params.patable]

/-- The byte of an index whose bits 7:6 are 0 is the index (R12). -/
theorem addr_of_top_eq_zero {e : ProfileEntry} (h : e.top = 0) : e.addr = e.index.setWidth 8 := by
  rw [ProfileEntry.addr, h]
  exact (BitVec.setWidth_eq_append (by decide)).symm

/-- 31 transactions of 69 bytes, for tables that meet R12 (R194). -/
theorem tableTransactions_counts {s : State} (hlen : s.params.profile.length = 30) (hpat : s.params.patable.length = 8) :
    s.tableTransactions.length = 31 ∧ (s.tableTransactions.map List.length).sum = 69 := by
  simp [State.tableTransactions, hlen, hpat, Function.comp_def]

/-- CONFIGURE's expansion for a PROFILE that meets R12: the check, the reset strobe, the delay, the tables and `Complete()`
(R190, R191). -/
theorem bodyConfigure_capture {s : State} (htop : ∀ e ∈ s.params.profile, e.top = 0) :
    bodyOf .configure (capture .configure s) =
      .needTables :: (([[0x30]].map (spiBytes s.params)).flatten ++ (.delayStart .settle :: .delayEnd .settle ::
        ((s.tableTransactions.map (spiBytes s.params)).flatten ++ [.complete .configured]))) := by
  have hburst : burstHeader patableAddr = 0x7E := by decide
  have hentries : s.params.profile.map (fun e => spiBytes s.params [e.addr, e.value]) =
      s.params.profile.map (fun e => spiBytes s.params [e.index.setWidth 8, e.value]) :=
    List.map_congr_left fun e he => by rw [addr_of_top_eq_zero (htop e he)]
  simp [bodyOf, bodyConfigure, State.tableTransactions, strobeTxn, writeBurstTxn, hentries, hburst, Function.comp_def]

/-- Settles O27: after the check of the tables the strobe, the delay and the tables' transactions, in order. -/
theorem configureAppliesTheProfile : Obligations.ConfigureAppliesTheProfile := by
  unfold Obligations.ConfigureAppliesTheProfile
  intro s h hlen htop hpat hso
  obtain ⟨htxns, hbytes⟩ := tableTransactions_counts hlen hpat
  obtain ⟨hfirst, t₁, hcheck, hseq₁, -, hmem₁, hp₁⟩ := guard_tables (bodyConfigure_capture htop)
    ((Params.profileLegal_iff _).mpr ⟨hlen, htop⟩) ((Params.patableLegal_iff _).mpr hpat)
  obtain ⟨c₂, t₂, hc₂, hstrobe, hseq₂, -, hmem₂, hp₂⟩ :=
    Passes.reaches_bytes (a := accept .configure (bodyOf .configure) s) (j := 0) (by simpa using hp₁) [[0x30]] hseq₁
      (SoFree.mono hso (by simp))
  obtain ⟨t₃, hdelay, hseq₃, -, hmem₃, hp₃⟩ := reaches_delay _ _ _ _ _ hseq₂
  obtain ⟨c₄, t₄, hc₄, htables, hseq₄, hcs₄, hmem₄, hp₄⟩ :=
    (hp₂.trans hp₃).reaches_bytes s.tableTransactions hseq₃ (by simpa [htxns] using hso)
  rw [htxns, hbytes] at hc₄
  have hc₂ : c₂ ≤ 4 := hc₂
  have hfuel : 1 + c₂ + 2 + c₄ ≤ runFuel := by
    simp only [runFuel]
    omega
  obtain ⟨hexec, hran⟩ := exec_of_reaches_complete h rfl hfirst (((hcheck.trans hstrobe).trans hdelay).trans htables) hfuel
    hseq₄ hp₄
  have hmem : (clockEdge t₄).mem = s.mem := ((hmem₄.trans hmem₃).trans hmem₂).trans hmem₁
  have hne : s.tableTransactions ≠ [] := by simp [State.tableTransactions]
  refine ⟨_, hexec, hran.completed .configured _, ?_, ?_, hcs₄.trans (if_neg hne), rfl, rfl,
    hran.keptByCommand hmem .configured _, hran.rdata, ⟨hran.rxCount, hran.rxOutcome⟩, hran.rssiRaw,
    keptBuffers_complete hmem .configured _⟩
  · simpa [State.tableTransactions] using hran.trace
  · simpa [hbytes] using hran.miso

end Sys2Proof.Machine
end

section
/-! PROOF. The lifecycle and transmit family: the transactions and bytes of the composite commands (R194, R205, R229), counted in
the bus record of each one's run. READ_PKT's run is followed here, for a malformed and for a well-formed length (R220 to R230). -/

namespace Sys2Proof.Machine

/-! ## Transactions and bytes of a bus record (R20, R94) -/

theorem transactionCount_append (xs ys : List BusEvent) :
    transactionCount (xs ++ ys) = transactionCount xs + transactionCount ys := List.countP_append

theorem byteCount_append (xs ys : List BusEvent) : byteCount (xs ++ ys) = byteCount xs + byteCount ys := List.countP_append

theorem replies_length (s : State) (k n : Nat) : (s.replies k n).length = n := by simp [State.replies]

/-- One transaction counts as one, and its bytes are the bytes sent (R95). -/
theorem counts_txnEvents {bs rs : List Byte} (h : rs.length = bs.length) :
    transactionCount (txnEvents bs rs) = 1 ∧ byteCount (txnEvents bs rs) = bs.length := by
  have hxfers : transactionCount (List.zipWith .xfer bs rs) = 0 ∧ byteCount (List.zipWith .xfer bs rs) = bs.length := by
    induction bs generalizing rs with
    | nil => exact ⟨rfl, rfl⟩
    | cons b bs ih =>
      obtain _ | ⟨r, rs⟩ := rs
      · simp at h
      · obtain ⟨htxn, hbyte⟩ := ih (rs := rs) (by simpa using h)
        have hcons : List.zipWith BusEvent.xfer (b :: bs) (r :: rs) = [.xfer b r] ++ List.zipWith .xfer bs rs := rfl
        rw [hcons, transactionCount_append, byteCount_append, htxn, hbyte]
        exact ⟨rfl, Nat.add_comm ..⟩
  obtain ⟨htxn, hbyte⟩ := hxfers
  have hends : txnEvents bs rs = [.csFall] ++ List.zipWith .xfer bs rs ++ [.csRise] := rfl
  rw [hends, transactionCount_append, transactionCount_append, byteCount_append, byteCount_append, htxn, hbyte]
  exact ⟨rfl, Nat.zero_add _⟩

/-- The record of some transactions holds as many transactions and bytes. -/
theorem counts_busOf (s : State) (k : Nat) (txns : List (List Byte)) :
    transactionCount (s.busOf k txns) = txns.length ∧ byteCount (s.busOf k txns) = (txns.map List.length).sum := by
  induction txns generalizing k with
  | nil => exact ⟨rfl, rfl⟩
  | cons bs txns ih =>
    obtain ⟨htxn, hbyte⟩ := ih (k + bs.length)
    obtain ⟨htxn₁, hbyte₁⟩ := counts_txnEvents (replies_length s k bs.length)
    rw [State.busOf, transactionCount_append, byteCount_append, htxn, hbyte, htxn₁, hbyte₁]
    exact ⟨Nat.add_comm .., by simp⟩

/-- A delay is no transaction (R285). -/
theorem counts_delay (d : DelayName) :
    transactionCount [.delayStart d, .delayEnd d] = 0 ∧ byteCount [.delayStart d, .delayEnd d] = 0 := ⟨rfl, rfl⟩

/-! ## READ_PKT, from acceptance to `Complete()` (R220) -/

/-- A malformed length leaves the flush (R224). -/
theorem decideLength_seq_of_malformed (op : Operation) {w : Work} (s : State)
    (h : w.last.toNat = 0 ∨ w.last.toNat > 64) :
    (decideLength op w s).seq = .run op (packetFlush s.params) { w with len := w.last } := by
  have hbad : lengthMalformed w.last.toNat = true := decide_eq_true h
  simp only [decideLength, hbad, if_true]

/-- A well-formed length leaves the reads of the packet, of whose bytes `min(L, C)` are copied (R220). -/
theorem decideLength_seq_of_wellFormed (op : Operation) {w : Work} (s : State) (hpos : 1 ≤ w.last.toNat)
    (hle : w.last.toNat ≤ 64) :
    (decideLength op w s).seq = .run op (packetTail s.params w.last.toNat (min w.last.toNat (curCapacity s)))
      { w with len := w.last, k := min w.last.toNat (curCapacity s), i := 0 } := by
  have hok : ¬lengthMalformed w.last.toNat = true := by
    rw [lengthMalformed, decide_eq_true_eq, maxPkt]
    omega
  simp only [decideLength, if_neg hok]

/-- READ_PKT with a malformed length comes to its `Complete()` after the length read and the flush (R224). -/
theorem exec_readPkt_malformed {s : State} (c : Byte) (h : s.Ready) (hso : s.SoFree 2)
    (hbad : (s.misoAt 1).toNat = 0 ∨ (s.misoAt 1).toNat > 64) :
    ∃ u w, exec (.readPkt c) s = .next (complete .malformed w u) ∧
      Ran (.readPkt c) s u (s.busOf 0 [[0xBF, s.params.dummyByte], [0x3A]]) 3 ∧ u.csN = true ∧ u.mem = s.mem := by
  obtain ⟨hfirst, t, m, hm, hlength, htseq, -, htmem, htp, -⟩ := reaches_length s c 1 hso
  rw [decideLength_seq_of_malformed _ _ hbad] at htseq
  obtain ⟨k, u, hk, hflush, huseq, hucs, humem, hup⟩ :=
    Passes.reaches_bytes (rest := [.complete .malformed]) htp [[0x3A]] (by simpa [packetFlush, strobeTxn] using htseq) hso
  have hk : k ≤ 4 := hk
  have hfuel : m + k ≤ runFuel := by
    simp only [runFuel]
    omega
  obtain ⟨hexec, hran⟩ := exec_of_reaches_complete h rfl hfirst (hlength.trans hflush) hfuel huseq hup
  rw [accept_busOf] at hran
  exact ⟨_, _, hexec, hran, hucs, humem.trans htmem⟩

/-- READ_PKT's steps after its decision: the copying reads, and then the dropped bytes and the two trailer bytes, each its own
single read (R220, R223). -/
theorem packetTail_eq (p : Params) (len k : Nat) :
    packetTail p len k = (List.replicate k (fifoRead p ++ [.rxStore])).flatten ++
      (((List.replicate (len - k + 2) [0xBF, p.dummyByte]).map (spiBytes p)).flatten ++ [.latchLqi, .complete .packet]) := by
  have hread : spiBytes p [0xBF#8, p.dummyByte] = fifoRead p := by
    rw [fifoRead, readRegisterTxn, show readHeader fifoAddr = 0xBF#8 by decide]
  simp [packetTail, hread, List.replicate_add]

/-- A number of equal transactions, and more of them after those. -/
theorem busOf_replicate_add (s : State) (i m n : Nat) (bs : List Byte) :
    s.busOf i (List.replicate (m + n) bs) =
      s.busOf i (List.replicate m bs) ++ s.busOf (i + m * bs.length) (List.replicate n bs) := by
  rw [List.replicate_add, busOf_append]
  simp

theorem lastReply_of_pos (s : State) (b : Byte) {n : Nat} (h : 0 < n) : lastReply s b n = s.misoAt (n - 1) := by
  obtain ⟨j, rfl⟩ := Nat.exists_eq_add_of_le' h
  rfl

/-- READ_PKT's latch of its LQI byte (R227) puts nothing on the bus. -/
theorem reaches_latchLqi {op : Operation} {rest : List MicroOp} {s : State} {w : Work}
    (hs : s.seq = .run op (.latchLqi :: rest) w) :
    ∃ t, Reaches 1 s t ∧ t.seq = .run op rest { w with lqi := w.last } ∧ t.csN = s.csN ∧ t.mem = s.mem ∧
      Passes s t [] 0 0 := by
  refine ⟨_, Reaches.step hs, rfl, rfl, rfl, ?_⟩
  constructor <;> simp [microStep]

/-- READ_PKT's steps after its decision (R220 steps 3 to 6): of `len` bytes the first `k` are copied to RXBUF and the rest
dropped, and the second trailer byte becomes the LQI byte. -/
theorem reaches_packetTail {op : Operation} {len k : Nat} {s : State} {w : Work}
    (hs : s.seq = .run op (packetTail s.params len k) w) (hi : w.i = 0) (hk : k ≤ len) (hk64 : k ≤ 64)
    (hso : s.SoFree (len + 2)) :
    ∃ c t w', c ≤ 6 * (len + 2) + 1 ∧ Reaches c s t ∧ t.seq = .run op [.complete .packet] w' ∧ t.csN = true ∧
      w'.k = w.k ∧ w'.lqi = s.misoAt (2 * len + 3) ∧
      Passes s t (s.busOf 0 (List.replicate (len + 2) [0xBF, s.params.dummyByte])) (2 * (len + 2))
        ((len + 2) * txnWaits s.params) ∧
      (∀ j < k, memGet t.mem (rxAddr j) = some (s.misoAt (2 * j + 1))) ∧
      ∀ a, (∀ j < k, a ≠ rxAddr j) → memGet t.mem a = memGet s.mem a := by
  obtain ⟨m, hm⟩ : ∃ m, m = len - k + 2 := ⟨_, rfl⟩
  have hreads : len + 2 = k + m := by omega
  rw [packetTail_eq, ← hm] at hs
  obtain ⟨c₁, u, hc₁, hcopy, ⟨l, huseq⟩, -, hup, hstored, hkept⟩ :=
    reaches_copy op _ k s w hs (SoFree.mono hso (by omega)) (by omega)
  obtain ⟨c₂, v, hc₂, hrest, hvseq, hvcs, hvmem, hvp⟩ :=
    hup.reaches_bytes (List.replicate m [0xBF, s.params.dummyByte]) huseq (by simpa [← hreads] using hso)
  obtain ⟨t, hlatch, htseq, htcs, htmem, htp⟩ := reaches_latchLqi hvseq
  have hbytes : ((List.replicate m [0xBF, s.params.dummyByte]).map List.length).sum = 2 * m := by simp [Nat.mul_comm]
  have hmem : t.mem = u.mem := htmem.trans hvmem
  rw [hbytes] at hc₂ hvp
  rw [List.length_replicate] at hc₂ hvp
  refine ⟨c₁ + c₂ + 1, t, _, by omega, (hcopy.trans hrest).trans hlatch, htseq, ?_, rfl, ?_, ?_, ?_, ?_⟩
  · rw [htcs, hvcs, if_neg (by simp; omega)]
  · dsimp only
    rw [hbytes, lastReply_of_pos u l (by omega), hup.misoAt]
    congr 1
    omega
  · rw [hreads, busOf_replicate_add, Nat.mul_add, Nat.mul_comm k]
    simpa using hvp.trans htp
  · simpa [hi, hmem] using hstored
  · simpa [hi, hmem] using hkept

/-- READ_PKT with a well-formed length `L` comes to its `Complete()` after L + 3 single reads (R220 to R230). -/
theorem exec_readPkt_packet {s : State} (c : Byte) (h : s.Ready) (hso : s.SoFree 67) {len k : Nat}
    (hlen : len = (s.misoAt 1).toNat) (hk : k = min len c.toNat) (hpos : 1 ≤ len) (hle : len ≤ 64) :
    ∃ u w, exec (.readPkt c) s = .next (complete .packet w u) ∧
      Ran (.readPkt c) s u (s.busOf 0 (List.replicate (len + 3) [0xBF, s.params.dummyByte])) (2 * (len + 3)) ∧
      u.csN = true ∧ w.k = k ∧ w.lqi = s.misoAt (2 * len + 5) ∧
      (∀ i < k, memGet u.mem (rxAddr i) = some (s.misoAt (2 * i + 3))) ∧
      ∀ a, (∀ i < k, a ≠ rxAddr i) → memGet u.mem a = memGet s.mem a := by
  have hkle : k ≤ len := hk ▸ min_le_left ..
  obtain ⟨hfirst, t, m, hm, hlength, htseq, -, htmem, htp, htso⟩ := reaches_length s c 66 hso
  have hparams : t.params = s.params := htp.params
  have hmin : min (s.misoAt 1).toNat (curCapacity { s with cur := (Instr.readPkt c).fields }) = k := by
    rw [hk, hlen]
    rfl
  rw [decideLength_seq_of_wellFormed _ _ (hlen ▸ hpos) (hlen ▸ hle), hmin, ← hlen] at htseq
  obtain ⟨n, u, w, hn, htail, huseq, hucs, hwk, hlqi, hup, hstored, hkept⟩ :=
    reaches_packetTail (by rw [htseq, hparams]) rfl hkle (by omega) (SoFree.mono htso (by omega))
  have hfuel : m + n ≤ runFuel := by
    simp only [runFuel]
    omega
  obtain ⟨hexec, hran⟩ := exec_of_reaches_complete h rfl hfirst (hlength.trans htail) hfuel huseq (htp.trans hup)
  refine ⟨_, w, hexec, ?_, hucs, hwk, ?_, fun i hi => ?_, fun a ha => (hkept a ha).trans (congrArg (memGet · a) htmem)⟩
  · rw [hparams, htp.busOf, accept_busOf] at hran
    have hreads : len + 3 = 1 + (len + 2) := by omega
    rw [hreads, busOf_replicate_add, Nat.mul_add]
    exact hran
  · rw [hlqi, htp.misoAt, accept_misoAt]
    congr 1
    omega
  · rw [clockEdge_mem, hstored i hi, htp.misoAt, accept_misoAt]
    congr 2
    omega

/-! ## The counts (R194, R205, R229) -/

/-- TX that answers a state has found the bytes it sends written (R203, R312). -/
theorem txWritten_of_exec_tx {s t : State} {n : BitVec 7} (h : s.Ready) (hpos : 1 ≤ n.toNat) (hn : n.toNat ≤ 64)
    (hexec : exec (.tx n) s = .next t) : s.TxWritten n.toNat := by
  by_contra hw
  rw [exec_eq_runCommand, guard_tx_fault h (operandCheck_tx hpos hn) (bodyTx_capture n s) hw] at hexec
  simp at hexec

/-- A command that has sent some transactions has added as many to the bus record (R20). -/
theorem transactionCount_of_ran {i : Instr} {s u : State} {txns : List (List Byte)} {n : Nat}
    (h : Ran i s u (s.busOf 0 txns) n) (c : Completion) (w : Work) :
    transactionCount (complete c w u).trace = transactionCount s.trace + txns.length := by
  obtain ⟨hcount, -⟩ := counts_busOf s 0 txns
  rw [complete_trace, h.trace, transactionCount_append, hcount]

/-- Settles O34: the events of each command's run, counted by transaction. -/
theorem compositeCommandsCountTheirTransactions : Obligations.CompositeCommandsCountTheirTransactions := by
  unfold Obligations.CompositeCommandsCountTheirTransactions
  refine ⟨fun s t h hso hprofile hpat hexec => ?configure, fun s t n h hso hpos hn hexec => ?tx,
    fun s t c h hso hexec => ?readPkt⟩
  case configure =>
    obtain ⟨hlen, htop⟩ := (Params.profileLegal_iff _).mp hprofile
    have hplen := (Params.patableLegal_iff _).mp hpat
    obtain ⟨t', hexec', -, htrace, -⟩ := configureAppliesTheProfile s h hlen htop hplen hso
    obtain rfl : t' = t := Host.Outcome.next.inj (hexec'.symm.trans hexec)
    obtain ⟨htxns, hbytes⟩ := tableTransactions_counts hlen hplen
    change t'.trace = s.trace ++ s.busOf 0 [[0x30]] ++ [.delayStart .settle, .delayEnd .settle] ++ s.busOf 1 s.tableTransactions
      at htrace
    simp only [htrace, transactionCount_append, byteCount_append, counts_busOf, counts_delay, htxns, hbytes]
    exact ⟨rfl, rfl⟩
  case tx =>
    obtain ⟨t', hexec', -, htrace, -⟩ :=
      txSendsTheFramedPacket s n h hpos hn (txWritten_of_exec_tx h hpos hn hexec) hso
    obtain rfl : t' = t := Host.Outcome.next.inj (hexec'.symm.trans hexec)
    change t'.trace = s.trace ++ s.busOf 0 (s.txTransactions n) ++ [.delayStart .tx, .delayEnd .tx] at htrace
    have htxns : (s.txTransactions n).length = 5 := rfl
    simp [htrace, transactionCount_append, byteCount_append, counts_busOf, counts_delay, htxns, txTransactions_bytes]
  case readPkt =>
    split_ifs with hbad
    · obtain ⟨u, w, hexec', hran, -⟩ := exec_readPkt_malformed c h (SoFree.mono hso (by decide)) hbad
      obtain rfl := Host.Outcome.next.inj (hexec'.symm.trans hexec)
      exact transactionCount_of_ran hran .malformed w
    · obtain ⟨u, w, hexec', hran, -⟩ := exec_readPkt_packet c h hso rfl rfl (by omega) (by omega)
      obtain rfl := Host.Outcome.next.inj (hexec'.symm.trans hexec)
      rw [transactionCount_of_ran hran .packet w, List.length_replicate]

end Sys2Proof.Machine
end

section
/-! PROOF. The packet-framer family: what READ_PKT answers for a malformed and for a well-formed length (R220 to R230), and the
round trip of a packet from TX's writes to the transmit FIFO to READ_PKT's RXBUF (R236). -/

namespace Sys2Proof.Machine

/-! ## What READ_PKT answers (R224, R228, R229) -/

/-- Settles O31: after the length read READ_PKT is the flush, and no step before `Complete()` writes a buffer. -/
theorem readPktMalformedLengthFlushes : Obligations.ReadPktMalformedLengthFlushes := by
  unfold Obligations.ReadPktMalformedLengthFlushes
  intro s c h hso hbad
  obtain ⟨u, w, hexec, hran, hcs, hmem⟩ := exec_readPkt_malformed c h hso hbad
  exact ⟨_, hexec, hran.completed .malformed w, hran.sent hcs .malformed w, rfl, rfl, hran.keptByCommand hmem .malformed w,
    hran.keptLifecycle (by simp [Instr.operation]), hran.rdata, hran.rssiRaw, keptBuffers_complete hmem .malformed w⟩

/-- A packet whose CRC-OK bit is set is delivered with the count of the copied bytes (R229). -/
theorem complete_packet_of_crcOk {w : Work} (s : State) (hcrc : w.lqi.getLsbD 7 = true) (hk : w.k ≤ 64) :
    (complete .packet w s).rxCount.toNat = w.k ∧ (complete .packet w s).rxOutcome = .delivered := by
  have hres : writeResult .packet w s = { s with rxCount := BitVec.ofNat 7 w.k, rxOutcome := .delivered } := if_pos hcrc
  rw [complete_rxCount, complete_rxOutcome, hres, BitVec.toNat_ofNat]
  exact ⟨Nat.mod_eq_of_lt (by omega), rfl⟩

/-- A packet whose CRC-OK bit is clear is reported without its bytes (R228). -/
theorem complete_packet_of_crcFail {w : Work} (s : State) (hcrc : w.lqi.getLsbD 7 = false) :
    (complete .packet w s).rxCount = 0 ∧ (complete .packet w s).rxOutcome = .crcFail := by
  have hres : writeResult .packet w s = { s with rxCount := 0, rxOutcome := .crcFail } := if_neg (Bool.eq_false_iff.mp hcrc)
  rw [complete_rxCount, complete_rxOutcome, hres]
  exact ⟨rfl, rfl⟩

/-- READ_PKT's `Complete()` writes no result field but RXINFO (R220). -/
theorem complete_packet_keeps (w : Work) (s : State) :
    KeptLifecycle s (complete .packet w s) ∧ KeptRdata s (complete .packet w s) ∧ KeptRssi s (complete .packet w s) := by
  simp only [complete, writeResult]
  split <;> exact ⟨⟨rfl, rfl⟩, rfl, rfl⟩

/-- A command that has written no byte of TXBUF keeps what every command keeps, whatever it has written in RXBUF. -/
theorem Ran.keptByCommand_of_txbuf {i : Instr} {s u : State} {evs : List BusEvent} {n : Nat} (h : Ran i s u evs n)
    (htx : KeptTxbuf s u) (c : Completion) (w : Work) : KeptByCommand s (complete c w u) := by
  have h' : Ran i { s with mem := u.mem } u evs n := { h with }
  obtain ⟨hparams, hagenda, hrst, hsclk, herr, hcode, hrdata, hherr, hram, hrace, -⟩ := h'.keptByCommand rfl c w
  refine ⟨hparams, hagenda, hrst, hsclk, herr, hcode, hrdata, hherr, hram, hrace, fun j hj => ?_⟩
  rw [complete_mem, htx j hj]

/-- TXBUF lies below RXBUF in the host window (R48, R49). -/
theorem txAddr_ne_rxAddr {i : Nat} (hi : i < 64) (j : Nat) : txAddr i ≠ rxAddr j := by
  simp only [txAddr, rxAddr]
  omega

/-- Settles O32: READ_PKT's run has copied the bytes and latched the LQI byte, whose CRC-OK bit decides `Complete()`. -/
theorem readPktDrainsOnePacket : Obligations.ReadPktDrainsOnePacket := by
  unfold Obligations.ReadPktDrainsOnePacket
  intro s c h hso len k hpos hle
  obtain ⟨u, w, hexec, hran, hcs, hwk, hlqi, hstored, hkept⟩ :=
    exec_readPkt_packet (len := len) (k := k) c h hso rfl rfl hpos hle
  obtain ⟨⟨hlife, hcfg⟩, hrdata, hrssi⟩ := complete_packet_keeps w u
  have hk64 : w.k ≤ 64 := by omega
  have hbytes : ((List.replicate (len + 3) [0xBF, s.params.dummyByte]).map List.length).sum = 2 * (len + 3) := by
    simp [Nat.mul_comm]
  have htx : KeptTxbuf s u := fun i hi => hkept _ fun j _ => txAddr_ne_rxAddr hi j
  refine ⟨_, hexec, hran.completed .packet w, ?_, ?_, ?_, fun hcrc => ?_, fun hcrc => ?_,
    hran.keptByCommand_of_txbuf htx .packet w, ?_, hrdata.trans hran.rdata, hrssi.trans hran.rssiRaw⟩
  · exact Ran.sent (hbytes ▸ hran) hcs .packet w
  · rwa [complete_mem]
  · rwa [complete_mem]
  · rw [← hwk]
    exact complete_packet_of_crcOk u (hlqi ▸ hcrc) hk64
  · exact complete_packet_of_crcFail u (hlqi ▸ hcrc)
  · obtain ⟨hlife', hcfg'⟩ := hran.keptLifecycle (by simp [Instr.operation])
    exact ⟨hlife.trans hlife', hcfg.trans hcfg'⟩

/-! ## What a bus record writes to the FIFO (R125, R127) -/

/-- The header is a write to the FIFO's index, burst or not (R125). -/
def writesFifo (m : Byte) : Bool := !m.getLsbD 7 && m.extractLsb' 0 6 == fifoAddr

/-- The bytes that a transaction of the bytes `bs` writes to the FIFO: those after a header that writes it. -/
def fifoBytes : List Byte → List Byte
  | [] => []
  | m :: data => if writesFifo m then data else []

/-- After its header a transaction writes all of its bytes to the FIFO or none. -/
theorem fifoWrites_exchanges (b : Bool) {bs rs : List Byte} (hlen : rs.length = bs.length) (rest : List BusEvent) :
    fifoWrites (some b) (List.zipWith .xfer bs rs ++ rest) = (if b then bs else []) ++ fifoWrites (some b) rest := by
  induction bs generalizing rs with
  | nil => cases b <;> rfl
  | cons m bs ih =>
    obtain _ | ⟨r, rs⟩ := rs
    · simp at hlen
    · have htail := ih (rs := rs) (by simpa using hlen)
      cases b
      · exact htail
      · exact congrArg (m :: ·) htail

/-- A whole transaction, before events whose writes do not depend on the header last seen. -/
theorem fifoWrites_txnEvents (st : Option Bool) {bs rs out : List Byte} (hlen : rs.length = bs.length)
    {rest : List BusEvent} (hrest : ∀ st, fifoWrites st rest = out) :
    fifoWrites st (txnEvents bs rs ++ rest) = fifoBytes bs ++ out := by
  obtain _ | ⟨m, bs⟩ := bs
  · exact hrest none
  · obtain _ | ⟨r, rs⟩ := rs
    · simp at hlen
    · have hdata := fifoWrites_exchanges (writesFifo m) (bs := bs) (rs := rs) (by simpa using hlen) (.csRise :: rest)
      have hfirst : fifoWrites st (txnEvents (m :: bs) (r :: rs) ++ rest) =
          fifoWrites (some (writesFifo m)) (List.zipWith .xfer bs rs ++ .csRise :: rest) := by
        simp [txnEvents, fifoWrites, writesFifo]
      rw [hfirst, hdata, fifoBytes, fifoWrites, hrest]

/-- The record of some transactions writes to the FIFO what each of them does. -/
theorem fifoWrites_busOf (s : State) (st : Option Bool) (k : Nat) (txns : List (List Byte)) {rest : List BusEvent}
    {out : List Byte} (hrest : ∀ st, fifoWrites st rest = out) :
    fifoWrites st (s.busOf k txns ++ rest) = txns.flatMap fifoBytes ++ out := by
  induction txns generalizing st k with
  | nil => exact hrest st
  | cons bs txns ih =>
    rw [State.busOf, List.append_assoc, fifoWrites_txnEvents st (replies_length s k bs.length) fun st => ih st _,
      List.flatMap_cons, List.append_assoc]

/-- Of TX's five transactions the length write and the payload burst write the FIFO (R200, R201). -/
theorem fifoBytes_txTransactions (s : State) (n : BitVec 7) :
    (s.txTransactions n).flatMap fifoBytes = n.setWidth 8 :: s.txBytes n.toNat := by
  have hone : writesFifo 0x3F#8 = true := by decide
  have hburst : writesFifo 0x7F#8 = true := by decide
  simp [State.txTransactions, fifoBytes, hone, hburst]

/-- TX writes the declared length and then the payload to the transmit FIFO (R201). -/
theorem fifoWrites_of_exec_tx {s t : State} {n : BitVec 7} (h : s.Ready) (hpos : 1 ≤ n.toNat) (hn : n.toNat ≤ 64)
    (hw : s.TxWritten n.toNat) (hso : s.SoFree 5) (hexec : exec (.tx n) s = .next t) :
    fifoWrites none (t.trace.drop s.trace.length) = n.setWidth 8 :: s.txBytes n.toNat := by
  obtain ⟨t', hexec', -, htrace, -⟩ := txSendsTheFramedPacket s n h hpos hn hw hso
  obtain rfl : t' = t := Host.Outcome.next.inj (hexec'.symm.trans hexec)
  change t'.trace = s.trace ++ s.busOf 0 (s.txTransactions n) ++ [.delayStart .tx, .delayEnd .tx] at htrace
  have hdelay : ∀ st, fifoWrites st [.delayStart .tx, .delayEnd .tx] = [] := fun _ => by simp [fifoWrites]
  rw [htrace, List.append_assoc, List.drop_left, fifoWrites_busOf s none 0 _ hdelay, fifoBytes_txTransactions,
    List.append_nil]

/-! ## The round trip (R236) -/

/-- A written byte of TXBUF is the payload's byte of that place. -/
theorem txBytes_getD {s : State} {n i : Nat} (hw : s.TxWritten n) (hi : i < n) :
    some ((s.txBytes n).getD i 0) = memGet s.mem (txAddr i) := by
  obtain ⟨b, hb⟩ := Option.isSome_iff_exists.mp (hw i hi)
  simp [State.txBytes, hi, hb]

/-- Settles O33: the first byte answered is the length READ_PKT reads, and the payload is what it copies. -/
theorem transmittedPacketIsRecovered : Obligations.TransmittedPacketIsRecovered := by
  unfold Obligations.TransmittedPacketIsRecovered
  intro s₁ s₂ t₁ n c h₁ hpos hn hw hso₁ hexec
  rw [fifoWrites_of_exec_tx h₁ hpos hn hw hso₁ hexec]
  refine ⟨rfl, fun h₂ hso₂ hcap hreplies hcrc => ?_⟩
  rw [List.length_cons, txBytes_length] at hreplies hcrc
  have hlen : (s₂.misoAt 1).toNat = n.toNat := by
    rw [hreplies 0 (Nat.succ_pos _), List.getD_cons_zero, BitVec.toNat_setWidth]
    omega
  have hdrain := readPktDrainsOnePacket s₂ c h₂ hso₂
  simp only [hlen, Nat.min_eq_left hcap] at hdrain
  obtain ⟨t₂, hexec₂, -, -, hstored, -, hok, -⟩ := hdrain hpos hn
  obtain ⟨hcount, houtcome⟩ := hok hcrc
  refine ⟨t₂, hexec₂, hcount, houtcome, fun i hi => ?_⟩
  calc memGet t₂.mem (rxAddr i) = some (s₂.misoAt (2 * i + 3)) := hstored i hi
    _ = some ((s₁.txBytes n.toNat).getD i 0) := congrArg some (hreplies (i + 1) (Nat.succ_lt_succ hi))
    _ = memGet s₁.mem (txAddr i) := txBytes_getD hw hi

end Sys2Proof.Machine
end

section
/-! PROOF. The RSSI family: what READ_RSSI and DECODE_RSSI answer (R250, R253), and the decoder behind RSSI_DBM on its two runs, one
for each sign of the raw byte (R256 to R258). -/

namespace Sys2Proof.Machine

/-! ## The commands (R250, R253) -/

/-- Settles O35: READ_RSSI's expansion is a status read of RSSI_ADDR whose `Complete()` writes RSSI_RAW. -/
theorem readRssiStoresTheRawByte : Obligations.ReadRssiStoresTheRawByte := by
  unfold Obligations.ReadRssiStoresTheRawByte
  intro s h hso
  obtain ⟨-, hheader, -⟩ := headers_eq_or s.params.rssiAddr
  have hbody : bodyOf .readRssi (capture .readRssi s) =
      spiBytes s.params [0xC0#8 ||| s.params.rssiAddr.setWidth 8, s.params.dummyByte] ++ [.complete .rssiReceived] := by
    simp only [bodyOf, bodyReadRssi, readStatusTxn, hheader, capture_params]
  obtain ⟨u, w, hexec, hran, hcs, hmem, hlast⟩ := exec_spiBytes _ h rfl hbody hso (by simp)
  have hraw : (complete .rssiReceived w u).rssiRaw = s.misoAt 1 := hlast
  exact ⟨_, hexec, hran.completed _ w, hran.sent hcs _ w, hraw, by rw [rssiDbmWord, hraw], hran.keptByCommand hmem _ w,
    hran.keptLifecycle (by simp [Instr.operation]), hran.rdata, ⟨hran.rxCount, hran.rxOutcome⟩,
    keptBuffers_complete hmem _ w⟩

/-- Settles O36: DECODE_RSSI stands at its `Complete()` as soon as it is accepted, and CUR.D is its operand. -/
theorem decodeRssiLoadsTheOperand : Obligations.DecodeRssiLoadsTheOperand := by
  unfold Obligations.DecodeRssiLoadsTheOperand
  intro s r h
  have hseq : (accept (.decodeRssi r) (bodyOf (.decodeRssi r)) s).seq =
      .run .decodeRssi [.complete .rssiOperand] (Work.start s.mem) := accept_seq ..
  have hfirst := seqStep_eq_next hseq (by simp) (by simp)
  obtain ⟨hexec, hran⟩ :=
    exec_of_reaches_complete h rfl hfirst (Reaches.refl _) (Nat.zero_le _) hseq (Passes.refl _)
  exact ⟨_, hexec, hran.completed _ _, rfl, rfl, rfl, rfl, rfl, rfl, hran.keptByCommand rfl _ _,
    hran.keptLifecycle (by simp [Instr.operation]), hran.rdata, ⟨hran.rxCount, hran.rxOutcome⟩,
    keptBuffers_complete rfl _ _⟩

/-! ## The decoder (R256 to R258) -/

/-- Truncation is the floor after a negative number is raised by 1 (R257). -/
theorem tdiv_two_eq (n : Int) : n.tdiv 2 = (n + if n < 0 then 1 else 0) / 2 := by
  have hsign : Int.sign 2 = 1 := rfl
  rw [Int.tdiv_eq_ediv, hsign]
  split_ifs <;> omega

/-- The arithmetic shift right by 1 is the floor of the half (R257). -/
theorem shiftRight_one_eq (n : Int) : n >>> (1 : Int) = n / 2 :=
  (Int.shiftRight_natCast_right n 1).trans (Int.shiftRight_eq_div_pow n 1)

/-- Both branches of R256 halve the raw byte read as signed 8-bit (R257). -/
theorem rssiDecode_eq_tdiv_toInt (raw : Byte) : rssiDecode raw = Int.tdiv raw.toInt 2 - 74 := by
  rcases lt_or_ge raw.toNat 128 with h | h
  · rw [rssiDecode, if_neg (by omega), BitVec.toInt_eq_toNat_cond, if_pos (by omega), rssiOffset]
  · rw [rssiDecode, if_pos h, BitVec.toInt_eq_toNat_cond, if_neg (by omega), rssiOffset]
    rfl

/-- The two rising runs: one of the non-negative readings, and one of the negative, which truncation rounds up (R258, R259). -/
theorem rssiDecode_runs (raw : Byte) :
    (raw.toNat < 128 ∧ rssiDecode raw = -74 + (raw.toNat / 2 : Nat)) ∨
    (128 ≤ raw.toNat ∧ rssiDecode raw = -138 + ((raw.toNat - 127) / 2 : Nat)) := by
  have hbyte := raw.isLt
  rcases lt_or_ge raw.toNat 128 with h | h
  · refine .inl ⟨h, ?_⟩
    rw [rssiDecode, if_neg (by omega), tdiv_two_eq, if_neg (by omega), rssiOffset]
    omega
  · refine .inr ⟨h, ?_⟩
    rw [rssiDecode, if_pos h, tdiv_two_eq, if_pos (by omega), rssiOffset]
    omega

/-- The range of the decoder (R258). -/
theorem rssiDecode_range (raw : Byte) : -138 ≤ rssiDecode raw ∧ rssiDecode raw ≤ -11 := by
  have hbyte := raw.isLt
  rcases rssiDecode_runs raw with ⟨h, hrun⟩ | ⟨h, hrun⟩ <;> omega

/-- The RSSI_DBM word, read as signed, is the decoded value, since the range fits it (R47). -/
theorem toInt_rssiDbmWord (s : State) : (rssiDbmWord s).toInt = rssiDecode s.rssiRaw := by
  obtain ⟨hlow, hhigh⟩ := rssiDecode_range s.rssiRaw
  exact BitVec.toInt_ofInt_eq_self (by decide) (by omega) (by omega)

/-- Settles O37: the shift right by 1 is the floor of the half, and the range bounds the width. -/
theorem rssiDecodeHardwareForm : Obligations.RssiDecodeHardwareForm := by
  unfold Obligations.RssiDecodeHardwareForm
  refine ⟨fun raw => ?_, 128, by decide⟩
  obtain ⟨hlow, hhigh⟩ := rssiDecode_range raw
  have hdiv := rssiDecode_eq_tdiv_toInt raw
  exact ⟨hdiv, by rw [hdiv, tdiv_two_eq, shiftRight_one_eq], by omega, by omega⟩

/-- Settles O38: each clause is read off the run the byte lies on. -/
theorem rssiDecodeRange : Obligations.RssiDecodeRange := by
  unfold Obligations.RssiDecodeRange
  refine ⟨rssiDecode_range, fun raw hlt => ?low, fun raw hge => ?high, fun raw => ?offset, fun raw => ?wide,
    by decide, by decide, by decide, by decide, toInt_rssiDbmWord⟩
  all_goals have hruns := rssiDecode_runs raw
  case offset => bv_omega
  all_goals omega

end Sys2Proof.Machine
end

section
/-! PROOF. The exceptions family: a CMD write accepted and rejected (R270, R273 to R275), and the stops of a running machine at the
start of a command (R276, R278, R312). -/

namespace Sys2Proof.Machine

/-! ## Rejection (R270, R273 to R275) -/

/-- A CMD write while BUSY = 1 is rejected before its word is decoded (R272, R273). -/
theorem writeEffect_cmd_of_busy (w : Word) {s : State} (hb : s.busy = true) :
    writeEffect 0x00 w s = reject .busyCollision s := by
  simp [writeEffect, submit, hb]

/-- A CMD write while BUSY = 0 of a word that does not decode is rejected with Decode's code (R270). -/
theorem writeEffect_cmd_of_reject {w : Word} {c : Code} {s : State} (hb : s.busy = false) (hd : decode w = .reject c) :
    writeEffect 0x00 w s = reject c s := by
  simp [writeEffect, submit, hb, hd]

/-- A write of a TXBUF word while BUSY = 1 is rejected (R274). -/
theorem writeEffect_txWord_of_busy {off : Nat} (ho : 0x40 ≤ off ∧ off < 0x80) (w : Word) {s : State} (hb : s.busy = true) :
    writeEffect off w s = reject .busyCollision s := by
  unfold writeEffect writeTxbuf
  rw [if_neg (by omega), if_neg (by omega), if_pos ho, if_pos hb]

/-- A legal host write whose effect is a rejection answers the rejected state without a host-port error (R82, R275). -/
theorem memWrite_of_rejected {off : BitVec 8} (ha : off.extractLsb' 0 2 = 0) {w : Word} {c : Code} {s : State}
    (h : writeEffect off.toNat w s = reject c s) :
    memWrite off w 0xF s = .next { s with err := true, errCode := c, hErr := false } := by
  rw [memWrite_of_aligned ha, h]
  rfl

/-- Settles O8: a write to CMD and one to a TXBUF word both look at BUSY first. -/
theorem busyWritesAreRejected : Obligations.BusyWritesAreRejected := by
  unfold Obligations.BusyWritesAreRejected
  intro s w hb
  refine ⟨memWrite_of_rejected (by decide) (writeEffect_cmd_of_busy w hb), fun k hk => ?_⟩
  obtain ⟨hoff, ha⟩ := txWord_offset hk
  have hrange : 0x40 ≤ txAddr (4 * k) ∧ txAddr (4 * k) < 0x80 := by simp only [txAddr]; omega
  exact memWrite_of_rejected ha (writeEffect_txWord_of_busy (hoff ▸ hrange) w hb)

/-- Settles O9: Submit's rejecting branch is the whole effect of the write. -/
theorem rejectedWordOnlySetsErr : Obligations.RejectedWordOnlySetsErr := by
  unfold Obligations.RejectedWordOnlySetsErr
  intro s w c hb hd
  exact memWrite_of_rejected (by decide) (writeEffect_cmd_of_reject hb hd)

/-- Settles O39: the check of BUSY comes before everything a command does. -/
theorem busyCommandIsTurnedAway : Obligations.BusyCommandIsTurnedAway := by
  unfold Obligations.BusyCommandIsTurnedAway
  exact fun i s hr hb => exec_of_busy hr hb i

/-! ## Acceptance (R270, R190) -/

theorem operation_eq_configure_iff (i : Instr) : i.operation = .configure ↔ i = .configure := by
  cases i <;> simp [Instr.operation]

/-- No command is at its end when it starts: steps that fit the pins end in `Complete()` or READ_PKT's decision (R51). -/
theorem bodyOf_ne_nil (i : Instr) (s : State) : bodyOf i s ≠ [] := by
  intro hnil
  obtain ⟨hfits, -⟩ := isExpansion_bodyOf i s
  simp [hnil, posFits] at hfits

/-- Settles O10: the write is the acceptance of the command, and CUR's fields are the word's. -/
theorem acceptedWordStartsTheCommand : Obligations.AcceptedWordStartsTheCommand := by
  unfold Obligations.AcceptedWordStartsTheCommand
  intro s w i hb hd
  refine ⟨_, bodyOf_ne_nil i (capture i { s with hErr := false }), ?_⟩
  rw [memWrite_cmd hb hd]
  simp only [accept, capture, fields_of_decode hd, operation_eq_configure_iff]
  rfl

/-! ## The stops at a command's start (R276, R278, R312) -/

/-- Only the expansions of WRITE_BURST, TX and CONFIGURE hold a check. -/
theorem noChecks_bodyOf_or (i : Instr) (s : State) :
    noChecks (bodyOf i s) = true ∨ (∃ a n, i = .writeBurst a n) ∨ (∃ n, i = .tx n) ∨ i = .configure := by
  have first : ∀ m rest, bodyOf i s = m :: rest → isCheck m = false → noChecks (bodyOf i s) = true := fun m rest hbody hm => by
    have htail := noChecks_bodyOf_tail i s
    rw [hbody] at htail ⊢
    rw [noChecks_cons, hm]
    exact htail
  cases i with
  | writeBurst a n => exact .inr (.inl ⟨a, n, rfl⟩)
  | tx n => exact .inr (.inr (.inl ⟨n, rfl⟩))
  | configure => exact .inr (.inr (.inr rfl))
  | decodeRssi raw => exact .inl (first (.complete .rssiOperand) _ rfl rfl)
  | strobe _ | readReg _ | readStatus _ | writeReg _ _ | rx | readPkt _ | readRssi => exact .inl (first .csLow _ rfl rfl)

/-- The check of the bytes to be sent answers, or some byte is unwritten and it faults (R312). -/
theorem seqStep_needTx {s : State} {op : Operation} {n : Nat} {rest : List MicroOp} {w : Work}
    (hs : s.seq = .run op (.needTx n :: rest) w) :
    Proceeds (seqStep s) ∨ (¬s.TxWritten n ∧ seqStep s = .fault .unwrittenTxByte) := by
  simp only [seqStep, hs]
  by_cases h : txWritten s n = true
  · exact .inl ⟨_, if_pos h⟩
  · exact .inr ⟨mt (txWritten_iff s n).mpr h, if_neg h⟩

/-- The check of the tables answers, or it refuses PROFILE, or PATABLE beside a legal PROFILE (R12, R278). -/
theorem seqStep_needTables_cases {s : State} {op : Operation} {rest : List MicroOp} {w : Work}
    (hs : s.seq = .run op (.needTables :: rest) w) :
    Proceeds (seqStep s) ∨ (s.params.profileLegal = false ∧ seqStep s = .refused .profileOutsideDomain) ∨
      (s.params.profileLegal = true ∧ s.params.patableLegal = false ∧ seqStep s = .refused .patableOutsideDomain) := by
  rw [seqStep_needTables hs]
  cases hp : s.params.profileLegal with
  | false => exact .inr (.inl ⟨rfl, rfl⟩)
  | true =>
    cases ht : s.params.patableLegal with
    | false => exact .inr (.inr ⟨rfl, rfl, rfl⟩)
    | true => exact .inl ⟨_, rfl⟩

theorem proceeds_of_unchecked {s : State} (h : s.Unchecked) : Proceeds (seqStep s) := ⟨_, seqStep_of_unchecked h⟩

/-- With no move to come the step is the sequencer's, or nothing in reset (R104, R300). -/
theorem step_of_no_moves {s : State} (ha : s.agenda = []) : step s = if s.rstN then seqStep s else .next s := by
  simp only [step, machineMove, ha]

/-- Settles O55: a check is left at a command's start only, and it is the first step of WRITE_BURST, TX or CONFIGURE. -/
theorem runningMachineOnlyStopsAtACommandsStart : Obligations.RunningMachineOnlyStopsAtACommandsStart := by
  unfold Obligations.RunningMachineOnlyStopsAtACommandsStart
  rintro s ⟨-, hseq, -⟩ ha
  rw [step_of_no_moves ha]
  split_ifs with hr
  case neg => exact .inl ⟨s, rfl⟩
  cases hs : s.seq with
  | idle => exact .inl (proceeds_of_unchecked (unchecked_of_idle hs))
  | run op pos w =>
    obtain ⟨-, -, -, -, -, i, -, rfl, hcur, rfl | hpos⟩ := (seqInv_run_iff hs).mp hseq
    case inr => exact .inl (proceeds_of_unchecked (unchecked_of_run hs hpos))
    obtain hbody | ⟨a, n, rfl⟩ | ⟨n, rfl⟩ | rfl := noChecks_bodyOf_or i s
    · exact .inl (proceeds_of_unchecked (unchecked_of_run hs hbody))
    · have hn : curCount s = n.toNat := congrArg (fun f => f.n.toNat) hcur
      exact (seqStep_needTx hs).imp_right fun ⟨hw, hstop⟩ => ⟨w, .inl ⟨a, n, hcur, rfl, hn ▸ hw, hstop⟩⟩
    · have hn : curCount s = n.toNat := congrArg (fun f => f.n.toNat) hcur
      exact (seqStep_needTx hs).imp_right fun ⟨hw, hstop⟩ => ⟨w, .inr (.inl ⟨n, hcur, rfl, hn ▸ hw, hstop⟩)⟩
    · exact (seqStep_needTables_cases hs).imp_right fun hstop => ⟨w, .inr (.inr ⟨hcur, rfl, hstop⟩)⟩

end Sys2Proof.Machine
end

section
/-! PROOF. The reset and hazards family: the fault on unwritten TXBUF bytes (R312, R171, R203), the Idle machine (R302), and reset,
entered and held (R300, R301, R304, R327). -/

namespace Sys2Proof.Machine

/-! ## Unwritten bytes (R312) -/

/-- Of no bytes none is unwritten (R312). -/
theorem pos_of_not_txWritten {s : State} {n : Nat} (hw : ¬s.TxWritten n) : 1 ≤ n := by
  by_contra hn
  exact hw fun i hi => absurd hi (by omega)

/-- Settles O26: the check of TXBUF is the first step of both expansions. -/
theorem unwrittenTxByteFaults : Obligations.UnwrittenTxByteFaults := by
  unfold Obligations.UnwrittenTxByteFaults
  intro s n h hn hw
  refine ⟨fun a => ?_, ?_⟩
  · have hi : operandCheck (.writeBurst a n) = none := if_neg (by omega)
    rw [exec_eq_runCommand]
    exact guard_tx_fault h hi (bodyWriteBurst_capture a n s) hw
  · have hi : operandCheck (.tx n) = none := operandCheck_tx (pos_of_not_txWritten hw) hn
    rw [exec_eq_runCommand]
    exact guard_tx_fault h hi (bodyTx_capture n s) hw

/-! ## The Idle machine (R302) -/

/-- An Idle sequencer sees the clock edge and nothing else (R302). -/
theorem seqStep_of_idle {s : State} (hs : s.seq = .idle) : seqStep s = .next (clockEdge s) := by
  rw [seqStep_of_unchecked (unchecked_of_idle hs)]
  simp only [seqAdvance, hs]

/-- Settles O49: the step is a clock edge, which moves the synchronisers, the draws of line levels and DCNT. -/
theorem idleMachineDoesNothing : Obligations.IdleMachineDoesNothing := by
  unfold Obligations.IdleMachineDoesNothing
  intro s ha hr hs
  exact ⟨clockEdge s, (step_of_no_moves ha).trans ((if_pos hr).trans (seqStep_of_idle hs)), rfl⟩

/-! ## Entering reset (R300, R301) -/

/-- The next move of a machine that is not held in reset (R103). -/
theorem step_of_move_running {s : State} {m : Move} {rest : List Move} (ha : s.agenda = m :: rest) (hr : s.rstN = true) :
    step s = moveRunning m rest s := by
  simp only [step, machineMove, ha, hr, if_true]

/-- A cut exchange of a given byte is seen for its first moments (R301). -/
theorem cutExchange_xfer (seen : Fin 24) {s : State} {op : Operation} {b : Byte} {rest : List MicroOp} {w : Work}
    (hs : s.seq = .run op (.xfer b :: rest) w) :
    cutExchange seen s = if seen.val = 0 then [] else [.xferCut seen b (s.misoAt 0)] := by
  simp only [cutExchange, exchangeAhead, hs]

/-- A cut exchange of a byte of TXBUF is seen for its first moments (R301). -/
theorem cutExchange_xferTx (seen : Fin 24) {s : State} {op : Operation} {i : Nat} {rest : List MicroOp} {w : Work}
    (hs : s.seq = .run op (.xferTx i :: rest) w) :
    cutExchange seen s = if seen.val = 0 then [] else [.xferCut seen (txByte s i) (s.misoAt 0)] := by
  simp only [cutExchange, exchangeAhead, hs]

/-- Where the sequencer stands at no exchange, reset cuts none (R301). -/
theorem cutExchange_of_no_exchange (seen : Fin 24) {s : State}
    (hx : ∀ op b rest w, s.seq ≠ .run op (.xfer b :: rest) w) (ht : ∀ op i rest w, s.seq ≠ .run op (.xferTx i :: rest) w) :
    cutExchange seen s = [] := by
  have hnone : exchangeAhead s = none := by
    unfold exchangeAhead
    split
    · exact absurd ‹_› (hx _ _ _ _)
    · exact absurd ‹_› (ht _ _ _ _)
    · rfl
  simp only [cutExchange, hnone]

/-- Settles O50: the move enters reset, whose registers are the reset values, and the bus record by what the sequencer stands at. -/
theorem resetTakesEffectAtOnce : Obligations.ResetTakesEffectAtOnce := by
  unfold Obligations.ResetTakesEffectAtOnce
  refine ⟨fun s seen rest ha hr => ?_, fun mosi seen m r => ⟨rfl, rfl⟩⟩
  refine ⟨enterReset seen { s with agenda := rest }, step_of_move_running ha hr, rfl, rfl, rfl, rfl, rfl, rfl, rfl, rfl, rfl,
    rfl, rfl, rfl, rfl, rfl, rfl, rfl, rfl, rfl, fun _ => rfl, rfl, rfl, ?_⟩
  have hcut : cutExchange seen { s with agenda := rest } = cutExchange seen s := rfl
  rw [enterReset_trace, hcut]
  congr 2
  split
  · exact cutExchange_xfer seen ‹_›
  · exact cutExchange_xferTx seen ‹_›
  · exact cutExchange_of_no_exchange seen ‹_› ‹_›

/-! ## Held in reset (R300, R327) -/

/-- The next move of a machine held in reset (R300). -/
theorem step_of_move_inReset {s : State} {m : Move} {rest : List Move} (ha : s.agenda = m :: rest) (hr : s.rstN = false) :
    step s = moveInReset m rest s := by
  simp [step, machineMove, ha, hr]

/-- Settles O51, by the moves of a machine held in reset. -/
theorem hostAccessDuringResetHasNoMove : Obligations.HostAccessDuringResetHasNoMove := by
  unfold Obligations.HostAccessDuringResetHasNoMove
  refine ⟨fun s hr ha => ?_, fun s m rest hr ha => ?_⟩
  · rw [step_of_no_moves ha, hr]
    rfl
  · rw [step_of_move_inReset ha hr]
    refine ⟨?_, ?_, ?_, ?_, ?_, ?_⟩
    · rintro off rfl
      rfl
    · rintro off w strb rfl
      rfl
    · rintro w rfl
      rfl
    · rintro rfl
      rfl
    · rintro (rfl | rfl | ⟨seen, rfl⟩) <;> rfl
    · rintro rfl
      rfl

end Sys2Proof.Machine
end
